-- ==== Sys2Proof/Word.lean ====
section
/-! DEFINITION. The byte and the 32-bit register word (00_scope R7, R8). -/

namespace Sys2Proof

/-- A byte: a natural below 256 (R8). -/
abbrev Byte := BitVec 8

/-- A 32-bit register of the register space (R22). -/
abbrev Word := BitVec 32

end Sys2Proof
end

