-- ==== Sys2Proof/Config.lean ====
section
/-! DEFINITION. The three OPEN parameters of the core (00_scope R6; 92 D9, D15, D17). Every other
implementation parameter is fixed by the spec. -/

namespace Sys2Proof

/-- CHUNK_ORDER (R278, D15): where the sRGB chunk stands. -/
inductive ChunkOrder where
  | idatFirst
  | srgbFirst
  deriving DecidableEq, Repr

/-- The parameters a model may take as arguments (R6). -/
structure Params where
  /-- ZHDR byte 0, CMF (R101). -/
  cmf : Byte
  /-- ZHDR byte 1, FLG (R101). -/
  flg : Byte
  /-- MAX_CHUNK_LEN: at most 2^32 - 1 (R304, D17), so 32 bits. -/
  maxChunkLen : Word
  /-- CHUNK_ORDER (R278). -/
  order : ChunkOrder
  deriving DecidableEq, Repr

/-- This core's values: ZHDR 78 01, MAX_CHUNK_LEN 2^31 - 1, IDAT_FIRST (R6). -/
def Params.core : Params :=
  { cmf := 0x78, flg := 0x01, maxChunkLen := 0x7FFFFFFF, order := .idatFirst }

/-- The stream headers D9 admits: CM = 8, CINFO at most 7, FDICT = 0, and
`(CMF * 256 + FLG) mod 31 = 0` (R101). -/
abbrev Params.Admissible (p : Params) : Prop :=
  p.cmf.toNat % 16 = 8 ∧ p.cmf.toNat / 16 ≤ 7 ∧ p.flg.toNat / 32 % 2 = 0
    ∧ (p.cmf.toNat * 256 + p.flg.toNat) % 31 = 0

end Sys2Proof
end

