-- ==== Sys2Proof/Machine/State.lean ====
section
/-! DEFINITION. The machine's state as plain data, its stops, and reset. -/

namespace Sys2Proof.Machine

/-- FORMAT.SEL: a closed set of four (10_state R24). -/
inductive ColorFormat where
  | gray
  | grayAlpha
  | rgb
  | rgba
  deriving DecidableEq, Repr

/-- STATUS.STATE (10_state R26). -/
inductive Phase where
  /-- No command since reset. -/
  | idle
  /-- An ENCODE is emitting. -/
  | busy
  /-- The last command completed. -/
  | done
  /-- The last command ended with an error. -/
  | error
  deriving DecidableEq, Repr

/-- STATUS.CAUSE (10_state R26, 60_exceptions R300); the reserved codes 4 to 15 are never produced. -/
inductive Cause where
  | none
  | contractViolation
  | sinkFailure
  | lengthOverflow
  deriving DecidableEq, Repr

/-- The sink's answer to an offered byte (20_memory R64). -/
inductive SinkAnswer where
  | accept
  | fail (code : Word)
  deriving DecidableEq, Repr

/-- The host's sink policy: SINK ACCEPT, or SINK FAIL_AT index, code (30_encoding R95). -/
inductive SinkPolicy where
  | accept
  | failAt (index : Nat) (code : Word)
  deriving DecidableEq, Repr

/-- The width of a host access to REGS; only `word` is defined (20_memory R66, R67). -/
inductive AccessSize where
  | byte
  | half
  | word
  deriving DecidableEq, Repr

/-- One operation of the HOST agent (00_scope R12; 30_encoding R95). -/
inductive HostOp where
  /-- A write of REGS: `WR` when `size` is `word`. -/
  | write (offset : Nat) (size : AccessSize) (value : Word)
  /-- A read of REGS: `RD` when `size` is `word`. -/
  | read (offset : Nat) (size : AccessSize)
  /-- `PIX`: bytes written into PIXMEM from an address on (R138). -/
  | pix (addr : BitVec 64) (bytes : List Byte)
  /-- The sink answers the offered byte (R64). -/
  | answer (a : SinkAnswer)
  /-- `SINK`: the policy the sink follows from here on (R95). -/
  | sink (p : SinkPolicy)
  /-- `WAIT`: the host answers per its policy and polls until STATE is not BUSY (R95). -/
  | wait
  /-- The core's reset is asserted (R341). -/
  | reset
  deriving DecidableEq, Repr

/-- The sixteen registers of REGS (10_state R22). -/
inductive Reg where
  | cmd
  | format
  | width
  | height
  | pixlenLo
  | pixlenHi
  | status
  | sinkcode
  | outcntLo
  | outcntHi
  | pred0
  | pred1
  | pred2
  | pred3
  | reserved
  deriving DecidableEq, Repr

/-- The four chunks (30_encoding R98). -/
inductive Chunk where
  | ihdr
  | idat
  | srgb
  | iend
  deriving DecidableEq, Repr

/-- A byte's place in a chunk (30_encoding R97): the index within the named field. -/
inductive ChunkField where
  | length (i : Nat)
  | type (i : Nat)
  | payload (i : Nat)
  | crc (i : Nat)
  deriving DecidableEq, Repr

/-- A byte's place in the StoredStream (43_stored_block_packager R215). -/
inductive StreamSlot where
  | zhdr (i : Nat)
  /-- Byte `i` of the header of non-final block `blk`. -/
  | nonfinal (blk i : Nat)
  /-- Byte `i` of the terminal block's header. -/
  | final (i : Nat)
  /-- Byte `i` of the payload of block `blk`. -/
  | data (blk i : Nat)
  | trailer (i : Nat)
  deriving DecidableEq, Repr

/-- The unit operation that owns an offset of OUT (45_orchestrator R281, R282). -/
inductive Slot where
  | signature (i : Nat)
  /-- A byte of a chunk other than an IDAT payload byte. -/
  | chunk (c : Chunk) (f : ChunkField)
  /-- An IDAT payload byte. -/
  | stream (t : StreamSlot)
  /-- No byte is offered. -/
  | nothing
  deriving DecidableEq, Repr

/-- What the core holds (10_state), the two spaces it reaches (20_memory R60), and the HOST agent as
data (log 4). -/
structure State where
  /-- ZHDR, MAX_CHUNK_LEN, CHUNK_ORDER (R6); no step writes them (log 7). -/
  params : Params
  /-- FORMAT.SEL (R24). -/
  sel : ColorFormat
  /-- WIDTH (R25). -/
  width : Word
  /-- HEIGHT (R25). -/
  height : Word
  /-- PIXLEN (R25). -/
  pixlen : BitVec 64
  /-- STATUS.STATE (R26). -/
  phase : Phase
  /-- STATUS.CAUSE (R26). -/
  cause : Cause
  /-- SINKCODE (R28). -/
  sinkcode : Word
  /-- OUTCNT (R29). -/
  outcnt : BitVec 64
  /-- PRED (R30). -/
  pred : BitVec 128
  /-- CRC-32 running register (R31). -/
  crc : Word
  /-- Adler-32 sum A (R31). -/
  adlerA : BitVec 16
  /-- Adler-32 sum B (R31). -/
  adlerB : BitVec 16
  /-- Index of the next framed byte (R31). -/
  fidx : BitVec 64
  /-- FRAMER row (R31). -/
  row : BitVec 32
  /-- FRAMER column; 0 is the tag (R31). -/
  col : BitVec 34
  /-- Payload bytes left in the current stored block (R31, R205). -/
  blkRem : BitVec 16
  /-- Index of the current stored block (R31, R205). -/
  blkIdx : BitVec 64
  /-- PIXMEM: the bytes the host has placed, by rising address (R61, log 2). -/
  pixmem : List Host.Cell
  /-- The bytes the sink has accepted, oldest first (R64, R73). -/
  sink : List Byte
  /-- The sink's answer to the offered byte, inside the step that takes it (log 5). -/
  answer : Option SinkAnswer
  /-- The policy WAIT follows (R95, log 13). -/
  policy : SinkPolicy
  /-- The host operations still to come, first one next (log 4). -/
  program : List HostOp
  /-- The words the host has read with RD, oldest first (R137, log 6); the polls of a WAIT are not among
  them (log 13). -/
  reads : List Word
  deriving DecidableEq, Repr

/-- Where the machine has no further step. -/
inductive Fault where
  /-- Raised by CHUNK_IDAT at a framed byte whose PIXMEM byte the host never supplied: "the core's
  read of a missing byte has no step" (93_implementation_defined). Safe: the spec has no step. -/
  | pixmemMissing (addr : Nat)
  /-- Raised by the step when the sink answers while BUSY with OUTCNT at or past `|OUT|`, which R21
  and R285 rule out. Safe: no run reaches it. -/
  | sequencerOverrun
  deriving DecidableEq, Repr

/-- Operations the spec gives no meaning. -/
inductive Refusal where
  /-- Raised by `exec` for a row without a meaning; no arm uses it. Safe. -/
  | notModelled (mnemonic : String)
  /-- Raised by a sub-word, misaligned or out-of-range access of REGS: "A model refuses them" (R67).
  Safe. -/
  | registerAccess (offset : Nat) (size : AccessSize)
  /-- Raised by a PIXMEM write while BUSY: "A model gives the host no PIXMEM write while BUSY" (R62).
  Unsafe if a host does write (D6, log 10). -/
  | pixmemWriteWhileBusy
  /-- Raised by a PIXMEM write past the end of the 64-bit space (R61). Safe. -/
  | pixmemAddress
  /-- Raised by a sink answer while no byte is offered, R285's precondition being STATE = BUSY.
  Safe (log 12). -/
  | sinkAnswerWithoutOffer
  /-- Raised by a record operation run where OUTCNT does not stand in its record (R282). Safe: the
  step runs only the operation that owns OUTCNT. -/
  | notAtThisOffset
  deriving DecidableEq, Repr

/-- The machine right after reset (R340). The internal registers, which R340 leaves unspecified, are
zero: DESIGN CHOICE, unsafe, log 1. PIXMEM lists nothing (log 2), nothing has reached the sink, and
the host has no operation pending (log 4); the parameters are this core's (R6). -/
def State.reset : State where
  params := Params.core
  sel := .gray
  width := 0
  height := 0
  pixlen := 0
  phase := .idle
  cause := .none
  sinkcode := 0
  outcnt := 0
  pred := 0
  crc := 0
  adlerA := 0
  adlerB := 0
  fidx := 0
  row := 0
  col := 0
  blkRem := 0
  blkIdx := 0
  pixmem := []
  sink := []
  answer := none
  policy := .accept
  program := []
  reads := []

end Sys2Proof.Machine
end

