-- ==== Sys2Proof/Machine/Flags.lean ====
section
/-! DEFINITION. STATUS, the core's only flags (10_state R26, R27). -/

namespace Sys2Proof.Machine

/-- STATUS.STATE's code (R26). -/
def Phase.code : Phase → Nat
  | .idle => 0
  | .busy => 1
  | .done => 2
  | .error => 3

/-- STATUS.CAUSE's code (R26, R300). -/
def Cause.code : Cause → Nat
  | .none => 0
  | .contractViolation => 1
  | .sinkFailure => 2
  | .lengthOverflow => 3

/-- The STATUS word: STATE in bits 1:0, CAUSE in bits 7:4, the reserved bits 0 (R26). -/
def statusWord (p : Phase) (c : Cause) : Word := BitVec.ofNat 32 (c.code * 16 + p.code)

/-- `STATE <- p ; CAUSE <- c`, the one way the flags are written (R27). -/
def State.setStatus (p : Phase) (c : Cause) (s : State) : State := { s with phase := p, cause := c }

end Sys2Proof.Machine
end

