-- ==== Sys2Proof/Machine/Operands.lean ====
section
/-! DEFINITION. Register offsets (10_state R22, 20_memory R66), FORMAT's field (R24, R91) and the
COLOR table (41_size_predictor R160). -/

namespace Sys2Proof.Machine

/-- The register at a byte offset of REGS; none where the offset is misaligned or outside (R22, R66). -/
def regAt : Nat → Option Reg
  | 0x00 => some .cmd
  | 0x04 => some .format
  | 0x08 => some .width
  | 0x0C => some .height
  | 0x10 => some .pixlenLo
  | 0x14 => some .pixlenHi
  | 0x18 => some .status
  | 0x1C => some .sinkcode
  | 0x20 => some .outcntLo
  | 0x24 => some .outcntHi
  | 0x28 => some .pred0
  | 0x2C => some .pred1
  | 0x30 => some .pred2
  | 0x34 => some .pred3
  | 0x38 => some .reserved
  | 0x3C => some .reserved
  | _ => none

/-- The register a defined access reaches: aligned, 32-bit, inside REGS (R66, R67). -/
def accessReg (off : Nat) : AccessSize → Option Reg
  | .word => regAt off
  | .half => none
  | .byte => none

/-- SEL's value (R24). -/
def ColorFormat.code : ColorFormat → Nat
  | .gray => 0
  | .grayAlpha => 1
  | .rgb => 2
  | .rgba => 3

/-- `channels(SEL)` (R160). -/
def ColorFormat.channels : ColorFormat → Nat
  | .gray => 1
  | .grayAlpha => 2
  | .rgb => 3
  | .rgba => 4

/-- `colourType(SEL)`, the code IHDR carries (R160). -/
def ColorFormat.colourType : ColorFormat → Byte
  | .gray => 0
  | .grayAlpha => 4
  | .rgb => 2
  | .rgba => 6

end Sys2Proof.Machine
end

