-- ==== Sys2Proof/Machine/Predictor.lean ====
section
/-! DEFINITION. The PREDICTOR: sizes from the format and shape alone (41_size_predictor). Exact
natural arithmetic, never wrapping (00_scope R7, D8). -/

namespace Sys2Proof.Machine

/-- `W * H * channels(SEL)`, the pixel-buffer length VALIDATE asks for (R270). -/
def pixelBytes (f : ColorFormat) (w h : Nat) : Nat := w * h * f.channels

/-- `stride(SEL, W)` (R161). -/
def stride (f : ColorFormat) (w : Nat) : Nat := w * f.channels

/-- `framed_len(SEL, W, H)` (R162). -/
def framedLen (f : ColorFormat) (w h : Nat) : Nat := h * (stride f w + 1)

/-- `q`: the number of non-final blocks, each exactly 65535 bytes (R163). -/
def fullBlocks (n : Nat) : Nat := n / 65535

/-- `m`: the payload length of the terminal block (R163). -/
def lastBlock (n : Nat) : Nat := n % 65535

/-- `block_count(n)` (R163). -/
def blockCount (n : Nat) : Nat := fullBlocks n + 1

/-- `stream_size(n)` (R164). -/
def streamSize (n : Nat) : Nat := 2 + 5 * fullBlocks n + 5 + n + 4

/-- `chunk_overhead(k)` (R165). -/
def chunkOverhead (k : Nat) : Nat := 12 + k

/-- `predicted_size(SEL, W, H)` (R165). -/
def predictedSize (f : ColorFormat) (w h : Nat) : Nat :=
  8 + chunkOverhead 13 + chunkOverhead 1 + chunkOverhead (streamSize (framedLen f w h))
    + chunkOverhead 0

/-- `stride` of the shape the registers hold (R92: operands are taken from FORMAT and WIDTH). -/
def State.stride (s : State) : Nat := Machine.stride s.sel s.width.toNat

/-- `framed_len` of the shape the registers hold. -/
def State.framedLen (s : State) : Nat := Machine.framedLen s.sel s.width.toNat s.height.toNat

/-- `stream_size` of the shape the registers hold: the IDAT payload length. -/
def State.streamSize (s : State) : Nat := Machine.streamSize s.framedLen

/-- `|OUT| = 70 + stream_size(n)` (R279). -/
def State.outLen (s : State) : Nat := 70 + s.streamSize

/-- VALIDATE (R270): PIXLEN is exactly the shape's byte count. -/
abbrev State.ShapeMatches (s : State) : Prop :=
  s.pixlen.toNat = pixelBytes s.sel s.width.toNat s.height.toNat

/-- SIZECHECK (R271): the IDAT payload fits MAX_CHUNK_LEN. -/
abbrev State.PayloadFits (s : State) : Prop := s.streamSize ≤ s.params.maxChunkLen.toNat

end Sys2Proof.Machine
end

