-- ==== Sys2Proof/Machine/Ops.lean ====
section
/-! DEFINITION. The shared operations: PIXMEM, the register space, command acceptance, raising an
error and leaving it, and the sink handshake. -/

namespace Sys2Proof.Machine

/-- PIXMEM's canonical form: addresses strictly rising and inside the 64-bit space (R61). An unlisted
address has no value (log 2), so no listed byte can equal one. -/
abbrev Memory.wf (m : List Host.Cell) : Prop :=
  m.Pairwise (fun a b => a.1 < b.1) ∧ ∀ c ∈ m, c.1 < 2 ^ 64

/-- `MemRead(PIXMEM, a, 1)` (R9, R61); none where the host has placed no byte (log 2). -/
def Memory.read : List Host.Cell → Nat → Option Byte
  | [], _ => none
  | (b, v) :: rest, a => if a = b then some v else Memory.read rest a

/-- One byte written by the host (R138). -/
def Memory.write : List Host.Cell → Nat → Byte → List Host.Cell
  | [], a, v => [(a, v)]
  | (b, u) :: rest, a, v =>
    if a < b then (a, v) :: (b, u) :: rest
    else if a = b then (a, v) :: rest
    else (b, u) :: Memory.write rest a v

/-- Bytes written from an address on (R95, PIX). -/
def Memory.writeBytes (m : List Host.Cell) (a : Nat) : List Byte → List Host.Cell
  | [] => m
  | v :: vs => Memory.writeBytes (Memory.write m a v) (a + 1) vs

/-- A host read of a register (R22, R137). -/
def State.readReg (s : State) : Reg → Word
  | .cmd => 0
  | .format => BitVec.ofNat 32 s.sel.code
  | .width => s.width
  | .height => s.height
  | .pixlenLo => s.pixlen.extractLsb' 0 32
  | .pixlenHi => s.pixlen.extractLsb' 32 32
  | .status => statusWord s.phase s.cause
  | .sinkcode => s.sinkcode
  | .outcntLo => s.outcnt.extractLsb' 0 32
  | .outcntHi => s.outcnt.extractLsb' 32 32
  | .pred0 => s.pred.extractLsb' 0 32
  | .pred1 => s.pred.extractLsb' 32 32
  | .pred2 => s.pred.extractLsb' 64 32
  | .pred3 => s.pred.extractLsb' 96 32
  | .reserved => 0

/-- A host write of a register other than CMD and FORMAT, whose words are instructions (R135); a
read-only or reserved register ignores it (R66), and while BUSY every register does (R136). -/
def State.writeReg (s : State) (r : Reg) (v : Word) : State :=
  if s.phase = .busy then s
  else match r with
    | .width => { s with width := v }
    | .height => { s with height := v }
    | .pixlenLo => { s with pixlen := s.pixlen.extractLsb' 32 32 ++ v }
    | .pixlenHi => { s with pixlen := v ++ s.pixlen.extractLsb' 0 32 }
    | .cmd | .format | .status | .sinkcode | .outcntLo | .outcntHi
    | .pred0 | .pred1 | .pred2 | .pred3 | .reserved => s

/-- A FORMAT write that selects `f` (R135, R136). -/
def State.selectFormat (f : ColorFormat) (s : State) : State :=
  if s.phase = .busy then s else { s with sel := f }

/-- The first lines of every accept step, and the way out of DONE and ERROR (R131, R132, R307):
OUTCNT and SINKCODE are cleared and PRED is computed. -/
def State.accept (s : State) : State :=
  { s with
    outcnt := 0
    sinkcode := 0
    pred := BitVec.ofNat 128 (predictedSize s.sel s.width.toNat s.height.toNat) }

/-- `raise E(info)` (R301): STATE and CAUSE, and SINKCODE for SINK_FAILURE; nothing else. -/
def State.raiseError (e : Cause) (info : Word) (s : State) : State :=
  let s := if e = .sinkFailure then { s with sinkcode := info } else s
  s.setStatus .error e

/-- The last lines of a successful ENCODE accept (R131): BUSY, and every internal register at its
first value. -/
def State.startEmission (s : State) : State :=
  { s.setStatus .busy .none with
    crc := 0xFFFFFFFF
    adlerA := 1
    adlerB := 0
    fidx := 0
    row := 0
    col := 0
    blkIdx := 0
    blkRem := 0 }

/-- The SINK ACCEPT step after the units have advanced (R285, R286): the byte is delivered, OUTCNT
counts it, and the last one completes the command. -/
def State.deliver (b : Byte) (s : State) : State :=
  let s := { s with sink := s.sink ++ [b], outcnt := s.outcnt + 1, answer := none }
  if s.outcnt.toNat = s.outLen then s.setStatus .done .none else s

/-- `Emit(b)` (R64): with no answer the core waits (R65); an ACCEPT advances the units and delivers
the byte (R285, R282); a FAIL raises SINK_FAILURE and advances nothing (R287). -/
def emit (b : Byte) (advance : State → State) (s : State) : Host.Outcome State Fault Refusal :=
  match s.answer with
  | none => .next s
  | some .accept => .next ((advance s).deliver b)
  | some (.fail code) => .next ({ s with answer := none }.raiseError .sinkFailure code)

/-- The core's reset (R340, R341): every register at its reset value; PIXMEM, the bytes the sink has
accepted and the host agent are not the core's (log 6). -/
def State.resetCore (s : State) : State :=
  { State.reset with
    params := s.params
    pixmem := s.pixmem
    sink := s.sink
    policy := s.policy
    program := s.program
    reads := s.reads }

end Sys2Proof.Machine
end

