-- ==== Sys2Proof/Machine/Commands.lean ====
section
/-! DEFINITION. The meanings of the CMD words (40_commands). Reserved bits are ignored (R93), and
every command is ignored while BUSY (R134). -/

namespace Sys2Proof.Machine

/-- NOP (R133): no effect, in every state. -/
def execNop (_rsv : Nat) (s : State) : Host.Outcome State Fault Refusal := .next s

/-- RESERVED_OP3 (R133): acts as NOP. -/
def execReservedOp3 (_rsv : Nat) (s : State) : Host.Outcome State Fault Refusal := .next s

/-- ENCODE's accept step (R131): VALIDATE first, then SIZECHECK (R306). -/
def execEncode (_rsv : Nat) (s : State) : Host.Outcome State Fault Refusal :=
  if s.phase = .busy then .next s
  else if ¬ s.ShapeMatches then .next (s.accept.raiseError .contractViolation 0)
  else if ¬ s.PayloadFits then .next (s.accept.raiseError .lengthOverflow 0)
  else .next s.accept.startEmission

/-- PREDICT (R132): completes in the accept step. -/
def execPredict (_rsv : Nat) (s : State) : Host.Outcome State Fault Refusal :=
  if s.phase = .busy then .next s else .next (s.accept.setStatus .done .none)

end Sys2Proof.Machine
end

