-- ==== Sys2Proof/Machine/Formats.lean ====
section
/-! DEFINITION. The meanings of the FORMAT words (30_encoding R91): a configuration write that sets
SEL, ignored while BUSY (40_commands R135, R136). -/

namespace Sys2Proof.Machine

/-- FORMAT_Gray (R160). -/
def execFormatGray (_rsv : Nat) (s : State) : Host.Outcome State Fault Refusal :=
  .next (s.selectFormat .gray)

/-- FORMAT_GrayAlpha (R160). -/
def execFormatGrayAlpha (_rsv : Nat) (s : State) : Host.Outcome State Fault Refusal :=
  .next (s.selectFormat .grayAlpha)

/-- FORMAT_RGB (R160). -/
def execFormatRGB (_rsv : Nat) (s : State) : Host.Outcome State Fault Refusal :=
  .next (s.selectFormat .rgb)

/-- FORMAT_RGBA (R160). -/
def execFormatRGBA (_rsv : Nat) (s : State) : Host.Outcome State Fault Refusal :=
  .next (s.selectFormat .rgba)

end Sys2Proof.Machine
end

