-- ==== Sys2Proof/Machine/Bytes.lean ====
section
/-! DEFINITION. Byte sequences and byte orders (00_scope R8, 20_memory R70), and the record
constants of 30_encoding. -/

namespace Sys2Proof.Machine

/-- BE32: most significant byte first (R8). -/
def be32 (v : Word) : List Byte :=
  [v.extractLsb' 24 8, v.extractLsb' 16 8, v.extractLsb' 8 8, v.extractLsb' 0 8]

/-- LE16: least significant byte first (R8). -/
def le16 (v : BitVec 16) : List Byte := [v.extractLsb' 0 8, v.extractLsb' 8 8]

/-- The byte `s[i]` of a sequence (R8). -/
def byteOf (bs : List Byte) (i : Nat) : Byte := bs.getD i 0

/-- The `n` bytes of a number, least significant first. -/
def bytesLE : Nat → Nat → List Byte
  | 0, _ => []
  | n + 1, w => BitVec.ofNat 8 w :: bytesLE n (w / 256)

/-- The signature's eight bytes (R96). -/
def sigBytes : List Byte := [0x89, 0x50, 0x4E, 0x47, 0x0D, 0x0A, 0x1A, 0x0A]

/-- The type tag IHDR (R98). -/
def tagIHDR : List Byte := [0x49, 0x48, 0x44, 0x52]

/-- The type tag IDAT (R98). -/
def tagIDAT : List Byte := [0x49, 0x44, 0x41, 0x54]

/-- The type tag sRGB (R98). -/
def tagSRGB : List Byte := [0x73, 0x52, 0x47, 0x42]

/-- The type tag IEND (R98). -/
def tagIEND : List Byte := [0x49, 0x45, 0x4E, 0x44]

/-- The two bytes of this core's stream header (R101). -/
def zhdrBytes : List Byte := [0x78, 0x01]

/-- A stored-block header: BFINAL in bit 0, BTYPE 00, then LEN and its complement, both
little-endian (R102, R103). -/
def blockHeader (final : Bool) (len : BitVec 16) : List Byte :=
  (if final then 0x01 else 0x00) :: (le16 len ++ le16 (~~~len))

end Sys2Proof.Machine
end

