-- ==== Sys2Proof/Machine/Framer.lean ====
section
/-! DEFINITION. The FRAMER (42_scanline_framer). -/

namespace Sys2Proof.Machine

/-- TAG (R181): the "none" filter type. -/
def tagByte : Byte := 0x00

/-- `frame(P, SEL, W, H)`, the FramedBuffer (R180). -/
def frame (pixels : List Byte) (f : ColorFormat) (w h : Nat) : List Byte :=
  let st := stride f w
  (List.range h).flatMap fun r => tagByte :: (pixels.drop (r * st)).take st

/-- The PIXMEM address of byte `j > 0` of framed row `r` (R182). -/
def framedAddr (st r j : Nat) : Nat := r * st + (j - 1)

/-- Byte `j` of framed row `r`: the tag, or a PIXMEM byte copied unchanged (R182, R183). -/
def framedByte (m : List Host.Cell) (st r j : Nat) : Option Byte :=
  if j = 0 then some tagByte else Memory.read m (framedAddr st r j)

/-- `fbyte(k)`, the random-access form (R183). -/
def fbyte (m : List Host.Cell) (st k : Nat) : Option Byte :=
  framedByte m st (k / (st + 1)) (k % (st + 1))

/-- FRAMER_NEXT's byte, from `(row, col)` (R184). -/
def State.framerByte (s : State) : Option Byte :=
  framedByte s.pixmem s.stride s.row.toNat s.col.toNat

/-- FRAMER_NEXT's advance of `(row, col)` and `fidx` (R184). -/
def State.framerAdvance (s : State) : State :=
  if s.col.toNat = s.stride then { s with row := s.row + 1, col := 0, fidx := s.fidx + 1 }
  else { s with col := s.col + 1, fidx := s.fidx + 1 }

/-- The pixel buffer: PIXMEM at `0 .. len - 1`, where the host has placed every byte (R61). -/
def pixelBuffer (m : List Host.Cell) (len : Nat) : Option (List Byte) :=
  (List.range len).mapM (Memory.read m)

end Sys2Proof.Machine
end

