-- ==== Sys2Proof/Machine/Packager.lean ====
section
/-! DEFINITION. The PACKAGER and its ADLER unit (43_stored_block_packager). -/

namespace Sys2Proof.Machine

/-- ADLER_UPDATE(b) on `(adlerA, adlerB)` (R212). -/
def adlerUpdate (ab : BitVec 16 × BitVec 16) (b : Byte) : BitVec 16 × BitVec 16 :=
  let a := (ab.1.toNat + b.toNat) % 65521
  (BitVec.ofNat 16 a, BitVec.ofNat 16 ((ab.2.toNat + a) % 65521))

/-- The sums after the bytes of `bs`, from ADLER_INIT (R211, R214). -/
def adlerSums (bs : List Byte) : BitVec 16 × BitVec 16 := bs.foldl adlerUpdate (1, 0)

/-- ADLER_OUT: `adlerB * 65536 + adlerA` (R213). -/
def adlerOut (ab : BitVec 16 × BitVec 16) : Word := ab.2 ++ ab.1

/-- `adler32(F)` (R214). -/
def adler32 (bs : List Byte) : Word := adlerOut (adlerSums bs)

/-- Stored block `i < q` of the partition: exactly 65535 bytes of `F` (R202). -/
def fullBlock (framed : List Byte) (i : Nat) : List Byte := (framed.drop (i * 65535)).take 65535

/-- `pack(F)`, the StoredStream (R200), for the stream header of `p`. -/
def pack (p : Params) (framed : List Byte) : List Byte :=
  let n := framed.length
  [p.cmf, p.flg]
    ++ (List.range (fullBlocks n)).flatMap (fun i => blockHeader false 65535 ++ fullBlock framed i)
    ++ blockHeader true (BitVec.ofNat 16 (lastBlock n)) ++ framed.drop (fullBlocks n * 65535)
    ++ be32 (adler32 framed)

/-- The place of stream offset `o` in the StoredStream of `n` framed bytes (R215). -/
def streamSlot (n o : Nat) : StreamSlot :=
  if o < 2 then .zhdr o
  else
    let blk := (o - 2) / 65540
    let i := (o - 2) % 65540
    if blk < fullBlocks n then
      if i < 5 then .nonfinal blk i else .data blk (i - 5)
    else
      let i := o - 2 - 65540 * fullBlocks n
      if i < 5 then .final i
      else if i < 5 + lastBlock n then .data (fullBlocks n) (i - 5)
      else .trailer (i - 5 - lastBlock n)

/-- ADLER_UPDATE on the core's registers (R212). -/
def State.adlerAdvance (b : Byte) (s : State) : State :=
  let ab := adlerUpdate (s.adlerA, s.adlerB) b
  { s with adlerA := ab.1, adlerB := ab.2 }

/-- One payload byte off the current block (R205, R207); a full block's last byte moves on to the
next block (log 9). -/
def State.blockAdvance (n : Nat) (s : State) : State :=
  let rem := s.blkRem - 1
  if rem = 0 ∧ s.blkIdx.toNat < fullBlocks n then
    { s with blkRem := rem, blkIdx := s.blkIdx + 1 }
  else { s with blkRem := rem }

/-- `blkRem` is loaded at a block header; of its five bytes the last one does it (R205, log 9). -/
def State.loadBlock (i : Nat) (len : BitVec 16) (s : State) : State :=
  if i = 4 then { s with blkRem := len } else s

end Sys2Proof.Machine
end

