-- ==== Sys2Proof/Machine/Serializer.lean ====
section
/-! DEFINITION. The SERIALIZER and its CRC unit (44_chunk_serializer). -/

namespace Sys2Proof.Machine

/-- The eight-fold loop of CRC_UPDATE, `n` rounds of it (R242). -/
def crcRounds : Nat → Word → Word
  | 0, c => c
  | n + 1, c => crcRounds n (if c.toNat % 2 = 1 then (c >>> 1) ^^^ 0xEDB88320 else c >>> 1)

/-- CRC_UPDATE(b) on the running register (R242). -/
def crcUpdate (crc : Word) (b : Byte) : Word := crcRounds 8 (crc ^^^ b.setWidth 32)

/-- The register after the bytes of `bs`, from CRC_INIT (R240, R242). -/
def crcRun (bs : List Byte) : Word := bs.foldl crcUpdate 0xFFFFFFFF

/-- CRC_OUT (R243). -/
def crcOut (crc : Word) : Word := crc ^^^ 0xFFFFFFFF

/-- `crc32(s)` (R244). -/
def crc32 (bs : List Byte) : Word := crcOut (crcRun bs)

/-- `chunk(T, P)` (R245). -/
def chunk (tag payload : List Byte) : List Byte :=
  be32 (BitVec.ofNat 32 payload.length) ++ tag ++ payload ++ be32 (crc32 (tag ++ payload))

/-- The place of offset `j` in a chunk with a payload of `len` bytes (R97). -/
def chunkField (len j : Nat) : ChunkField :=
  if j < 4 then .length j
  else if j < 8 then .type (j - 4)
  else if j < 8 + len then .payload (j - 8)
  else .crc (j - 8 - len)

/-- CRC_UPDATE on the core's register (R242). -/
def State.crcAdvance (b : Byte) (s : State) : State := { s with crc := crcUpdate s.crc b }

/-- CRC_UPDATE at type byte `i`; the first one comes after CRC_INIT (R240, R247). -/
def State.crcType (i : Nat) (b : Byte) (s : State) : State :=
  if i = 0 then { s with crc := crcUpdate 0xFFFFFFFF b } else s.crcAdvance b

/-- EMIT_LENGTH, EMIT_TYPE, EMIT_PAYLOAD or EMIT_CRC for one byte of a chunk with the given tag,
payload length and payload byte (R246 to R249). The length and CRC bytes leave `crc` alone. -/
def emitField (tag : List Byte) (len : Nat) (payload : Nat → Byte) (f : ChunkField) (s : State) :
    Host.Outcome State Fault Refusal :=
  match f with
  | .length i => emit (byteOf (be32 (BitVec.ofNat 32 len)) i) id s
  | .type i => emit (byteOf tag i) (State.crcType i (byteOf tag i)) s
  | .payload i => emit (payload i) (State.crcAdvance (payload i)) s
  | .crc i => emit (byteOf (be32 (crcOut s.crc)) i) id s

end Sys2Proof.Machine
end

