-- ==== Sys2Proof/Syntax.lean ====
section
/-! DEFINITION. The sixteen rows of the opcode table (30_encoding R106), one constructor each. -/

namespace Sys2Proof

/-- The rows of spec/opcode_table.json. `rsv` is bits 31:2 of a CMD or FORMAT word: reserved and
ignored (R90, R91, R93), kept so that no bit of an encoding is dropped. -/
inductive Instr where
  /-- NOP: CMD word with OP = 0 (R133). -/
  | nop (rsv : Nat)
  /-- ENCODE: CMD word with OP = 1 (R131). -/
  | encode (rsv : Nat)
  /-- PREDICT: CMD word with OP = 2 (R132). -/
  | predict (rsv : Nat)
  /-- RESERVED_OP3: CMD word with OP = 3 (R133). -/
  | reservedOp3 (rsv : Nat)
  /-- FORMAT_Gray: FORMAT word with SEL = 0 (R91, R160). -/
  | formatGray (rsv : Nat)
  /-- FORMAT_GrayAlpha: FORMAT word with SEL = 1 (R91, R160). -/
  | formatGrayAlpha (rsv : Nat)
  /-- FORMAT_RGB: FORMAT word with SEL = 2 (R91, R160). -/
  | formatRGB (rsv : Nat)
  /-- FORMAT_RGBA: FORMAT word with SEL = 3 (R91, R160). -/
  | formatRGBA (rsv : Nat)
  /-- SIGNATURE record: the eight bytes of R96 (R272). -/
  | signature
  /-- CHUNK_IHDR record, recognised by its type tag (R98, R273). -/
  | chunkIHDR
  /-- CHUNK_IDAT record, recognised by its type tag (R98, R275). -/
  | chunkIDAT
  /-- CHUNK_sRGB record, recognised by its type tag (R98, R276). -/
  | chunkSRGB
  /-- CHUNK_IEND record, recognised by its type tag (R98, R277). -/
  | chunkIEND
  /-- ZHDR record: the two bytes of the stream header (R101, R201). -/
  | zhdr
  /-- BLKHDR_NONFINAL record: the header of a full stored block (R103, R203). -/
  | blkhdrNonfinal
  /-- BLKHDR_FINAL record: the header of the terminal block, with its payload length (R103, R204). -/
  | blkhdrFinal (m : Nat)
  deriving DecidableEq, Repr

end Sys2Proof
end

