-- ==== Sys2Proof/Machine/Sequencer.lean ====
section
/-! DEFINITION. The SEQUENCER: the output sequence and the operation that owns each of its offsets
(45_orchestrator). -/

namespace Sys2Proof.Machine

/-- `ihdr(SEL, W, H)`, 13 bytes (R274). -/
def ihdr (f : ColorFormat) (w h : Word) : List Byte :=
  be32 w ++ be32 h ++ [8, f.colourType, 0, 0, 0]

/-- The sRGB payload (R100). -/
def srgbPayload : List Byte := [0x00]

/-- `OUT(SEL, W, H, PIXMEM)` for a pixel buffer and either CHUNK_ORDER (R279). -/
def out (p : Params) (f : ColorFormat) (w h : Word) (pixels : List Byte) : List Byte :=
  let idat := chunk tagIDAT (pack p (frame pixels f w.toNat h.toNat))
  let srgb := chunk tagSRGB srgbPayload
  sigBytes ++ chunk tagIHDR (ihdr f w h)
    ++ (match p.order with
      | .idatFirst => idat ++ srgb
      | .srgbFirst => srgb ++ idat)
    ++ chunk tagIEND []

/-- A byte of the IDAT chunk; its payload bytes belong to the packager's operations (R282). -/
def idatSlot (n j : Nat) : Slot :=
  match chunkField (streamSize n) j with
  | .payload o => .stream (streamSlot n o)
  | .length i => .chunk .idat (.length i)
  | .type i => .chunk .idat (.type i)
  | .crc i => .chunk .idat (.crc i)

/-- Where the IDAT chunk begins (R281). -/
def idatStart : ChunkOrder → Nat
  | .idatFirst => 33
  | .srgbFirst => 46

/-- Where the sRGB chunk begins, for an IDAT payload of `size` bytes (R281). -/
def srgbStart (size : Nat) : ChunkOrder → Nat
  | .idatFirst => 45 + size
  | .srgbFirst => 33

/-- The owner of offset `k` of OUT for `n` framed bytes: the table of R281. -/
def slotAt (order : ChunkOrder) (n k : Nat) : Slot :=
  let size := streamSize n
  if k < 8 then .signature k
  else if k < 33 then .chunk .ihdr (chunkField 13 (k - 8))
  else if idatStart order ≤ k ∧ k < idatStart order + (12 + size) then
    idatSlot n (k - idatStart order)
  else if srgbStart size order ≤ k ∧ k < srgbStart size order + 13 then
    .chunk .srgb (chunkField 1 (k - srgbStart size order))
  else if k < 70 + size then .chunk .iend (chunkField 0 (k - (58 + size)))
  else .nothing

/-- The slot of the byte the core offers: `OUT[OUTCNT]` while BUSY, nothing otherwise (R282). -/
def State.slot (s : State) : Slot :=
  if s.phase = .busy then slotAt s.params.order s.framedLen s.outcnt.toNat else .nothing

/-- The instruction that owns a slot, for `n` framed bytes (R282). -/
def Slot.owner (n : Nat) : Slot → Option Instr
  | .signature _ => some .signature
  | .chunk .ihdr _ => some .chunkIHDR
  | .chunk .idat _ => some .chunkIDAT
  | .chunk .srgb _ => some .chunkSRGB
  | .chunk .iend _ => some .chunkIEND
  | .stream (.zhdr _) => some .zhdr
  | .stream (.nonfinal _ _) => some .blkhdrNonfinal
  | .stream (.final _) => some (.blkhdrFinal (lastBlock n))
  | .stream (.data _ _) => some .chunkIDAT
  | .stream (.trailer _) => some .chunkIDAT
  | .nothing => none

/-- The unit operation the core is at (R282): what a program counter's fetch is elsewhere (R21). -/
def State.owner (s : State) : Option Instr := s.slot.owner s.framedLen

end Sys2Proof.Machine
end

