-- ==== Sys2Proof/Machine/Records.lean ====
section
/-! DEFINITION. The meanings of the record rows: the unit operation that owns OUTCNT offers its byte
and takes the sink's answer, one byte a step (45_orchestrator R282, R285, R287; log 3). Run anywhere
else, an operation is refused. -/

namespace Sys2Proof.Machine

/-- SIGNATURE (R272): no CRC covers it. -/
def execSignature (s : State) : Host.Outcome State Fault Refusal :=
  match s.slot with
  | .signature i => emit (byteOf sigBytes i) id s
  | _ => .refused .notAtThisOffset

/-- CHUNK_IHDR (R273, R274). -/
def execChunkIHDR (s : State) : Host.Outcome State Fault Refusal :=
  match s.slot with
  | .chunk .ihdr f => emitField tagIHDR 13 (byteOf (ihdr s.sel s.width s.height)) f s
  | _ => .refused .notAtThisOffset

/-- What a payload byte `b` changes when it is accepted: FRAMER_NEXT, ADLER_UPDATE, the block
register, and CRC_UPDATE (R207, R216). -/
def State.dataAdvance (b : Byte) (s : State) : State :=
  ((s.framerAdvance.adlerAdvance b).blockAdvance s.framedLen).crcAdvance b

/-- PAYLOAD (R207): one framed byte. -/
def emitData (s : State) : Host.Outcome State Fault Refusal :=
  match s.framerByte with
  | some b => emit b (State.dataAdvance b) s
  | none => .fault (.pixmemMissing (framedAddr s.stride s.row.toNat s.col.toNat))

/-- Byte `i` of the TRAILER (R209). -/
def emitTrailer (i : Nat) (s : State) : Host.Outcome State Fault Refusal :=
  let b := byteOf (be32 (adlerOut (s.adlerA, s.adlerB))) i
  emit b (State.crcAdvance b) s

/-- CHUNK_IDAT (R275): its length, type and CRC, and of its payload the framed bytes and the trailer;
ZHDR and the block headers are operations of their own. -/
def execChunkIDAT (s : State) : Host.Outcome State Fault Refusal :=
  match s.slot with
  | .chunk .idat f => emitField tagIDAT s.streamSize (fun _ => 0) f s
  | .stream (.data _ _) => emitData s
  | .stream (.trailer i) => emitTrailer i s
  | _ => .refused .notAtThisOffset

/-- CHUNK_sRGB (R276). -/
def execChunkSRGB (s : State) : Host.Outcome State Fault Refusal :=
  match s.slot with
  | .chunk .srgb f => emitField tagSRGB 1 (byteOf srgbPayload) f s
  | _ => .refused .notAtThisOffset

/-- CHUNK_IEND (R277). -/
def execChunkIEND (s : State) : Host.Outcome State Fault Refusal :=
  match s.slot with
  | .chunk .iend f => emitField tagIEND 0 (fun _ => 0) f s
  | _ => .refused .notAtThisOffset

/-- ZHDR (R201), the stream header of the parameters. -/
def execZhdr (s : State) : Host.Outcome State Fault Refusal :=
  match s.slot with
  | .stream (.zhdr i) =>
    emit (byteOf [s.params.cmf, s.params.flg] i)
      (State.crcAdvance (byteOf [s.params.cmf, s.params.flg] i)) s
  | _ => .refused .notAtThisOffset

/-- One byte of a stored-block header, and the block register it loads (R203 to R205). -/
def emitBlockHeader (final : Bool) (len : BitVec 16) (i : Nat) (s : State) :
    Host.Outcome State Fault Refusal :=
  let b := byteOf (blockHeader final len) i
  emit b (fun s => (s.crcAdvance b).loadBlock i len) s

/-- BLKHDR_NONFINAL (R203). -/
def execBlkhdrNonfinal (s : State) : Host.Outcome State Fault Refusal :=
  match s.slot with
  | .stream (.nonfinal _ i) => emitBlockHeader false 65535 i s
  | _ => .refused .notAtThisOffset

/-- BLKHDR_FINAL with its operand `m` (R204). -/
def execBlkhdrFinal (m : Nat) (s : State) : Host.Outcome State Fault Refusal :=
  match s.slot with
  | .stream (.final i) => emitBlockHeader true (BitVec.ofNat 16 m) i s
  | _ => .refused .notAtThisOffset

end Sys2Proof.Machine
end

