-- ==== Sys2Proof/Machine/Dispatch.lean ====
section
/-! DEFINITION. One arm per row of the opcode table. -/

namespace Sys2Proof.Machine

def exec (i : Instr) (s : State) : Host.Outcome State Fault Refusal :=
  match i with
  -- CMD words
  | .nop rsv => Sys2Proof.Machine.execNop rsv s
  | .encode rsv => Sys2Proof.Machine.execEncode rsv s
  | .predict rsv => Sys2Proof.Machine.execPredict rsv s
  | .reservedOp3 rsv => Sys2Proof.Machine.execReservedOp3 rsv s
  -- FORMAT words
  | .formatGray rsv => Sys2Proof.Machine.execFormatGray rsv s
  | .formatGrayAlpha rsv => Sys2Proof.Machine.execFormatGrayAlpha rsv s
  | .formatRGB rsv => Sys2Proof.Machine.execFormatRGB rsv s
  | .formatRGBA rsv => Sys2Proof.Machine.execFormatRGBA rsv s
  -- records
  | .signature => Sys2Proof.Machine.execSignature s
  | .chunkIHDR => Sys2Proof.Machine.execChunkIHDR s
  | .chunkIDAT => Sys2Proof.Machine.execChunkIDAT s
  | .chunkSRGB => Sys2Proof.Machine.execChunkSRGB s
  | .chunkIEND => Sys2Proof.Machine.execChunkIEND s
  | .zhdr => Sys2Proof.Machine.execZhdr s
  | .blkhdrNonfinal => Sys2Proof.Machine.execBlkhdrNonfinal s
  | .blkhdrFinal m => Sys2Proof.Machine.execBlkhdrFinal m s

end Sys2Proof.Machine
end

