-- ==== Sys2Proof/WellFormed.lean ====
section
/-! DEFINITION. Which terms of `Instr` are instructions of the core. -/

namespace Sys2Proof

/-- Operand ranges: the reserved bits 31:2 of a register word are a natural below 2^30 (R7, R90,
R91); the terminal block's payload length is at most 65534 (R202). -/
abbrev Instr.WellFormed : Instr → Prop
  | .nop rsv | .encode rsv | .predict rsv | .reservedOp3 rsv
  | .formatGray rsv | .formatGrayAlpha rsv | .formatRGB rsv | .formatRGBA rsv => rsv < 2 ^ 30
  | .signature | .chunkIHDR | .chunkIDAT | .chunkSRGB | .chunkIEND | .zhdr
  | .blkhdrNonfinal => True
  | .blkhdrFinal m => m ≤ 65534

end Sys2Proof
end

