-- ==== Sys2Proof/Decode.lean ====
section
/-! DEFINITION. Decoding and encoding (30_encoding). Three code spaces: words written to CMD, words
written to FORMAT, and the byte patterns of emitted records. -/

namespace Sys2Proof

/-- An encoded instruction: a 32-bit register write, `(offset, word)` as R95 gives it, or the bytes
of a record. -/
inductive Encoded where
  | busWrite (offset : Nat) (word : Word)
  | record (bytes : List Byte)
  deriving DecidableEq, Repr

/-- Why bytes are no instruction of the table. -/
inductive DecodeError where
  /-- The written register is neither CMD nor FORMAT. -/
  | notAnInstructionRegister (offset : Nat)
  /-- No record begins with these bytes. -/
  | unknownRecord
  /-- A stored-block header whose NLEN is not the complement of its LEN (R206). -/
  | lengthCheckFailed
  /-- A non-final stored block that is not full (R202). -/
  | nonfinalNotFull
  /-- A terminal stored block of 65535 bytes (R202). -/
  | finalTooLong
  /-- Bytes are left after the record. -/
  | trailingBytes
  deriving DecidableEq, Repr

/-- A CMD word: only bits 1:0 choose the command (R90, R93). -/
def decodeCmd (w : Word) : Instr :=
  let rsv := w.toNat / 4
  match w.toNat % 4 with
  | 0 => .nop rsv
  | 1 => .encode rsv
  | 2 => .predict rsv
  | _ => .reservedOp3 rsv

/-- A FORMAT word: only bits 1:0 choose the format (R91). -/
def decodeFormat (w : Word) : Instr :=
  let rsv := w.toNat / 4
  match w.toNat % 4 with
  | 0 => .formatGray rsv
  | 1 => .formatGrayAlpha rsv
  | 2 => .formatRGB rsv
  | _ => .formatRGBA rsv

/-- A stored-block header's LEN and NLEN fields; NLEN is "a self-check redundant length" (R206). -/
def decodeBlockLength (l0 l1 n0 n1 : Byte) : Except DecodeError Nat :=
  let len : BitVec 16 := l1 ++ l0
  let nlen : BitVec 16 := n1 ++ n0
  if nlen = ~~~len then .ok len.toNat else .error .lengthCheckFailed

/-- The record at the front of a byte sequence, and the bytes after it (R96, R98, R101 to R103). -/
def decodeRecord : List Byte → Except DecodeError (Instr × List Byte)
  | 0x89 :: 0x50 :: 0x4E :: 0x47 :: 0x0D :: 0x0A :: 0x1A :: 0x0A :: rest => .ok (.signature, rest)
  | 0x49 :: 0x48 :: 0x44 :: 0x52 :: rest => .ok (.chunkIHDR, rest)
  | 0x49 :: 0x44 :: 0x41 :: 0x54 :: rest => .ok (.chunkIDAT, rest)
  | 0x73 :: 0x52 :: 0x47 :: 0x42 :: rest => .ok (.chunkSRGB, rest)
  | 0x49 :: 0x45 :: 0x4E :: 0x44 :: rest => .ok (.chunkIEND, rest)
  | 0x78 :: 0x01 :: rest => .ok (.zhdr, rest)
  | 0x00 :: l0 :: l1 :: n0 :: n1 :: rest =>
    match decodeBlockLength l0 l1 n0 n1 with
    | .ok len => if len = 65535 then .ok (.blkhdrNonfinal, rest) else .error .nonfinalNotFull
    | .error e => .error e
  | 0x01 :: l0 :: l1 :: n0 :: n1 :: rest =>
    match decodeBlockLength l0 l1 n0 n1 with
    | .ok len => if len ≤ 65534 then .ok (.blkhdrFinal len, rest) else .error .finalTooLong
    | .error e => .error e
  | _ => .error .unknownRecord

/-- One encoded instruction. -/
def decode : Encoded → Except DecodeError Instr
  | .busWrite off w =>
    if off = 0x00 then .ok (decodeCmd w)
    else if off = 0x04 then .ok (decodeFormat w)
    else .error (.notAnInstructionRegister off)
  | .record bs =>
    match decodeRecord bs with
    | .ok (i, []) => .ok i
    | .ok (_, _ :: _) => .error .trailingBytes
    | .error e => .error e

/-- A register word from its reserved bits 31:2 and its low field 1:0 (R90, R91). -/
def regWord (rsv low : Nat) : Word := BitVec.ofNat 32 (rsv * 4 + low)

/-- The encoding of an instruction, from the same tables of 30_encoding. -/
def encode : Instr → Encoded
  | .nop rsv => .busWrite 0x00 (regWord rsv 0)
  | .encode rsv => .busWrite 0x00 (regWord rsv 1)
  | .predict rsv => .busWrite 0x00 (regWord rsv 2)
  | .reservedOp3 rsv => .busWrite 0x00 (regWord rsv 3)
  | .formatGray rsv => .busWrite 0x04 (regWord rsv 0)
  | .formatGrayAlpha rsv => .busWrite 0x04 (regWord rsv 1)
  | .formatRGB rsv => .busWrite 0x04 (regWord rsv 2)
  | .formatRGBA rsv => .busWrite 0x04 (regWord rsv 3)
  | .signature => .record Machine.sigBytes
  | .chunkIHDR => .record Machine.tagIHDR
  | .chunkIDAT => .record Machine.tagIDAT
  | .chunkSRGB => .record Machine.tagSRGB
  | .chunkIEND => .record Machine.tagIEND
  | .zhdr => .record Machine.zhdrBytes
  | .blkhdrNonfinal => .record (Machine.blockHeader false 65535)
  | .blkhdrFinal m => .record (Machine.blockHeader true (BitVec.ofNat 16 m))

/-- A stored-block header by its first byte alone (R102): the row gives LEN and NLEN no bits, and they
are computed from the payload length, which is 65535 for the non-final header and 0 here for the
terminal one (log 8). -/
def decodeHeaderByte (hdr : Byte) : Option Instr :=
  if hdr = 0x00 then some .blkhdrNonfinal
  else if hdr = 0x01 then some (.blkhdrFinal 0)
  else none

/-- The instruction read from a table row's bits. A single byte is a stored-block header byte. A record
of two bytes or more is recognised by its bytes, the first one in bits 7:0. Any other word is a host
write, the data word in bits 31:0 and the register offset in bits 63:32, so a word with nothing above
bit 31 is a write of CMD (log 8). -/
def decodeTableWord (nbits w : Nat) : Option Instr :=
  if nbits ≤ 8 then decodeHeaderByte (BitVec.ofNat 8 w)
  else
    match (decode (.record (Machine.bytesLE (nbits / 8) w))).toOption with
    | some i => some i
    | none => (decode (.busWrite (w / 2 ^ 32) (BitVec.ofNat 32 w))).toOption

end Sys2Proof
end

