-- ==== Sys2Proof/Machine/HostPort.lean ====
section
/-! DEFINITION. The host port: which operation of the HOST comes next, what the operations that are
no row of the opcode table do, and the host-program notation (30_encoding R95). -/

namespace Sys2Proof.Machine

/-- What the next step has to do. -/
inductive Fetched where
  /-- No operation is pending: neither agent acts (R284, R316). -/
  | idle
  /-- An instruction, and the state it runs in. -/
  | instr (i : Instr) (s : State)
  /-- A host operation that is no instruction, and the state it acts on. -/
  | access (op : HostOp) (s : State)
  deriving DecidableEq, Repr

/-- The answer a policy gives to the byte at index `k` (R95, log 13). -/
def SinkPolicy.answer (k : Nat) : SinkPolicy → SinkAnswer
  | .accept => .accept
  | .failAt i code => if k = i then .fail code else .accept

/-- The next operation. An aligned 32-bit write of CMD or FORMAT is an instruction (R130, R135); a
sink answer runs the unit operation that owns OUTCNT (R282); WAIT answers for the sink as long as a
byte is offered, and stays pending until STATE is not BUSY (R95; one byte a step is the model's
choice, log 13). -/
def fetch (s : State) : Fetched :=
  match s.program with
  | [] => .idle
  | op :: rest =>
    let s' := { s with program := rest }
    match op with
    | .write off .word v =>
      match decode (.busWrite off v) with
      | .ok i => .instr i s'
      | .error _ => .access op s'
    | .answer a =>
      match s.owner with
      | some i => .instr i { s' with answer := some a }
      | none => .access op s'
    | .wait =>
      match s.owner with
      | some i => .instr i { s with answer := some (s.policy.answer s.outcnt.toNat) }
      | none => .access op s'
    | .write _ .byte _ | .write _ .half _ | .read _ _ | .pix _ _ | .sink _ | .reset => .access op s'

/-- A register write that is no instruction (R66, R67, R135, R136). -/
def hostWrite (off : Nat) (size : AccessSize) (v : Word) (s : State) :
    Host.Outcome State Fault Refusal :=
  match accessReg off size with
  | some r => .next (s.writeReg r v)
  | none => .refused (.registerAccess off size)

/-- A register read: the host gets the word, the core does not change (R66, R67, R137). -/
def hostRead (off : Nat) (size : AccessSize) (s : State) : Host.Outcome State Fault Refusal :=
  match accessReg off size with
  | some r => .next { s with reads := s.reads ++ [s.readReg r] }
  | none => .refused (.registerAccess off size)

/-- A PIXMEM write (R138), which has no step while BUSY (R62). -/
def hostPix (a : BitVec 64) (bytes : List Byte) (s : State) : Host.Outcome State Fault Refusal :=
  if s.phase = .busy then .refused .pixmemWriteWhileBusy
  else if a.toNat + bytes.length ≤ 2 ^ 64 then
    .next { s with pixmem := Memory.writeBytes s.pixmem a.toNat bytes }
  else .refused .pixmemAddress

/-- A sink answer with no owner: outside BUSY no byte is offered (R285); BUSY past the end of OUT is
never reached (R21). -/
def hostAnswer (s : State) : Host.Outcome State Fault Refusal :=
  if s.phase = .busy then .fault .sequencerOverrun else .refused .sinkAnswerWithoutOffer

/-- The end of a WAIT: the poll that reads STATE other than BUSY (R95, R310). R95 makes WAIT repeated
`RD STATUS` and leaves the number of polls open. DESIGN CHOICE, log 13: no poll of a WAIT, the last one
included, adds a word to `reads`; an `RD STATUS` after it does. -/
def hostWait (s : State) : Host.Outcome State Fault Refusal :=
  if s.phase = .busy then .fault .sequencerOverrun else .next s

/-- A host operation that is no instruction. -/
def hostStep (op : HostOp) (s : State) : Host.Outcome State Fault Refusal :=
  match op with
  | .write off size v => hostWrite off size v s
  | .read off size => hostRead off size s
  | .pix a bytes => hostPix a bytes s
  | .answer _ => hostAnswer s
  | .sink p => .next { s with policy := p }
  | .wait => hostWait s
  | .reset => .next s.resetCore

/-- `WR <REG>, <v>` by offset (R95). -/
def wr (off : Nat) (v : Word) : HostOp := .write off .word v

/-- `RD <REG>` by offset (R95). -/
def rd (off : Nat) : HostOp := .read off .word

/-- The pseudo-instruction `NOP` (R95). -/
def opNop : HostOp := wr 0x00 0x00000000

/-- The pseudo-instruction `ENCODE` (R95). -/
def opEncode : HostOp := wr 0x00 0x00000001

/-- The pseudo-instruction `PREDICT` (R95). -/
def opPredict : HostOp := wr 0x00 0x00000002

/-- The pseudo-instruction `SHAPE <fmt>, <w>, <h>, <len>`: five writes (R95). -/
def opShape (f : ColorFormat) (w h : Word) (len : BitVec 64) : List HostOp :=
  [wr 0x04 (BitVec.ofNat 32 f.code), wr 0x08 w, wr 0x0C h,
    wr 0x10 (len.extractLsb' 0 32), wr 0x14 (len.extractLsb' 32 32)]

/-- The state in which a record's operation owns OUTCNT, its first byte offered: BUSY, at offset `k`,
over a Gray image of width 0 and height `h`, which needs no PIXMEM byte (log 14). -/
def State.poise (h k : Nat) (s : State) : State :=
  { s.startEmission with
    sel := .gray
    width := 0
    height := BitVec.ofNat 32 h
    pixlen := 0
    outcnt := BitVec.ofNat 64 k
    program := .answer .accept :: s.program }

/-- `s` with an instruction placed where the next step fetches: a command or a format as the host's
next write, a record as the sink's answer at its first offered byte (log 14). -/
def State.placeInstr (i : Instr) (s : State) : State :=
  let start := idatStart s.params.order
  match i with
  | .nop _ | .encode _ | .predict _ | .reservedOp3 _
  | .formatGray _ | .formatGrayAlpha _ | .formatRGB _ | .formatRGBA _ =>
    match encode i with
    | .busWrite off w => { s with program := .write off .word w :: s.program }
    | .record _ => s
  | .signature => s.poise 0 0
  | .chunkIHDR => s.poise 0 8
  | .chunkIDAT => s.poise 0 start
  | .chunkSRGB => s.poise 0 (srgbStart (Machine.streamSize 0) s.params.order)
  | .chunkIEND => s.poise 0 (58 + Machine.streamSize 0)
  | .zhdr => s.poise 0 (start + 8)
  | .blkhdrNonfinal => s.poise 65535 (start + 10)
  | .blkhdrFinal m => s.poise m (start + 10)

end Sys2Proof.Machine
end

