-- ==== Sys2Proof/Machine/Step.lean ====
section
/-! DEFINITION. One step of the machine. -/

namespace Sys2Proof.Machine

/-- One step: the next operation of the host, or of the core on the sink's answer (00_scope R12,
20_memory R75). With none pending, both wait (R65, R284). -/
def step (s : State) : Host.Outcome State Fault Refusal :=
  match fetch s with
  | .idle => .next s
  | .instr i s' => exec i s'
  | .access op s' => hostStep op s'

/-- `s` with an instruction of the opcode table where `step` fetches its next one; bits that are no
instruction are placed as the host write they stand for. -/
def State.withFetchWord (s : State) (nbits w : Nat) : State :=
  match decodeTableWord nbits w with
  | some i => s.placeInstr i
  | none => { s with program := wr (w / 2 ^ 32) (BitVec.ofNat 32 w) :: s.program }

end Sys2Proof.Machine
end

