-- ==== Sys2Proof/Machine/Consumer.lean ====
section
/-! DEFINITION. A consumer of the core's output, for the round-trip property (43_stored_block_packager
R217). It is outside the core: it reads zlib streams made of stored blocks and the four chunks the
core writes, checking every check value (log 19). -/

namespace Sys2Proof.Machine

/-- Stored blocks up to and including the one with BFINAL set: their payloads, and the bytes after
them (R102, R103). `fuel` bounds the number of blocks. -/
def readBlocks : Nat → List Byte → Option (List Byte × List Byte)
  | fuel + 1, hdr :: l0 :: l1 :: n0 :: n1 :: rest =>
    let len : BitVec 16 := l1 ++ l0
    let nlen : BitVec 16 := n1 ++ n0
    if hdr.toNat / 2 % 4 = 0 ∧ nlen = ~~~len ∧ len.toNat ≤ rest.length then
      if hdr.toNat % 2 = 1 then some (rest.take len.toNat, rest.drop len.toNat)
      else
        match readBlocks fuel (rest.drop len.toNat) with
        | some (payload, after) => some (rest.take len.toNat ++ payload, after)
        | none => none
    else none
  | _, _ => none

/-- A zlib stream of stored blocks: header check, blocks, Adler-32 check (R101, R104). -/
def unpack : List Byte → Option (List Byte)
  | cmf :: flg :: rest =>
    if cmf.toNat % 16 = 8 ∧ flg.toNat / 32 % 2 = 0 ∧ (cmf.toNat * 256 + flg.toNat) % 31 = 0 then
      match readBlocks rest.length rest with
      | some (framed, trailer) => if trailer = be32 (adler32 framed) then some framed else none
      | none => none
    else none
  | _ => none

/-- The rows of a FramedBuffer without their tags, each tag being the "none" filter (R181). -/
def unframe (st : Nat) : Nat → List Byte → Option (List Byte)
  | 0, [] => some []
  | 0, _ :: _ => none
  | _ + 1, [] => none
  | h + 1, tag :: rest =>
    if tag = tagByte ∧ st ≤ rest.length then (unframe st h (rest.drop st)).map (rest.take st ++ ·)
    else none

/-- A big-endian 32-bit field at the front of a sequence (R70). -/
def readBE32 : List Byte → Option (Word × List Byte)
  | b3 :: b2 :: b1 :: b0 :: rest => some (b3 ++ b2 ++ b1 ++ b0, rest)
  | _ => none

/-- A chunk with the given tag: its payload and the bytes after it, its CRC checked (R97). -/
def readChunk (tag bs : List Byte) : Option (List Byte × List Byte) :=
  match readBE32 bs with
  | none => none
  | some (len, rest) =>
    let payload := (rest.drop 4).take len.toNat
    match readBE32 (rest.drop (4 + len.toNat)) with
    | none => none
    | some (crc, after) =>
      if rest.take 4 = tag ∧ payload.length = len.toNat ∧ crc = crc32 (tag ++ payload) then
        some (payload, after)
      else none

/-- The format a colour-type code names (R160). -/
def formatOfColourType (b : Byte) : Option ColorFormat :=
  if b = 0 then some .gray
  else if b = 4 then some .grayAlpha
  else if b = 2 then some .rgb
  else if b = 6 then some .rgba
  else none

/-- An IHDR payload of bit depth 8 and methods 0 (R99). -/
def readHeader (bs : List Byte) : Option (ColorFormat × Word × Word) :=
  match readBE32 bs with
  | none => none
  | some (w, rest) =>
    match readBE32 rest with
    | some (h, [depth, ctype, comp, filt, lace]) =>
      if depth = 8 ∧ comp = 0 ∧ filt = 0 ∧ lace = 0 then
        (formatOfColourType ctype).map fun f => (f, w, h)
      else none
    | _ => none

/-- A whole file in either CHUNK_ORDER: the format, the shape and the pixel buffer (R105, R217). -/
def readFile (order : ChunkOrder) (bs : List Byte) :
    Option (ColorFormat × Word × Word × List Byte) := do
  if bs.take 8 ≠ sigBytes then none
  let (hdr, rest) ← readChunk tagIHDR (bs.drop 8)
  let (f, w, h) ← readHeader hdr
  let (stream, rest) ←
    match order with
    | .idatFirst => do
      let (stream, rest) ← readChunk tagIDAT rest
      let (_, rest) ← readChunk tagSRGB rest
      pure (stream, rest)
    | .srgbFirst => do
      let (_, rest) ← readChunk tagSRGB rest
      readChunk tagIDAT rest
  let (_, rest) ← readChunk tagIEND rest
  if rest ≠ [] then none
  let framed ← unpack stream
  let pixels ← unframe (stride f w.toNat) h.toNat framed
  pure (f, w, h, pixels)

end Sys2Proof.Machine
end

