-- ==== Sys2Proof/Machine/Instances.lean ====
section
/-! DEFINITION. Several cores (20_memory R80, 60_exceptions R314): each instance has its own state and
they share nothing. -/

namespace Sys2Proof.Machine

/-- Instance `k` of a system of cores takes one step; the others do not move (R80). -/
def stepInstance (k : Nat) (cores : List State) : Host.Outcome (List State) Fault Refusal :=
  match cores[k]? with
  | none => .next cores
  | some s =>
    match step s with
    | .next s' => .next (cores.set k s')
    | .fault r => .fault r
    | .refused r => .refused r

end Sys2Proof.Machine
end

