-- ==== Sys2Proof/Safety.lean ====
section
/-! DEFINITION. What the claims speak of: runs, the bytes a command has delivered, the registers a
command cannot see, and the invariants of the machine. -/

namespace Sys2Proof.Machine

/-- `k` steps of the machine. -/
def runFor (k : Nat) (s : State) : Host.Outcome State Fault Refusal := Host.Core.run Sys2Proof.core k s

/-- `OUT` for the registers' shape and a pixel buffer (R279). -/
def State.out (s : State) (pixels : List Byte) : List Byte :=
  Machine.out s.params s.sel s.width s.height pixels

/-- The FramedBuffer for the registers' shape and a pixel buffer (R180). -/
def State.frame (s : State) (pixels : List Byte) : List Byte :=
  Machine.frame pixels s.sel s.width.toNat s.height.toNat

/-- The pixel buffer the host has placed: PIXMEM `0 .. PIXLEN - 1`, if every byte is there (R61). -/
def State.pixels (s : State) : Option (List Byte) := pixelBuffer s.pixmem s.pixlen.toNat

/-- The last OUTCNT bytes the sink accepted: those of the current or last ENCODE (R29). -/
def State.delivered (s : State) : List Byte := s.sink.drop (s.sink.length - s.outcnt.toNat)

/-- `s` with the internal registers of R31 cleared: what can be told apart outside the core. -/
def State.visible (s : State) : State :=
  { s with
    crc := 0
    adlerA := 0
    adlerB := 0
    fidx := 0
    row := 0
    col := 0
    blkRem := 0
    blkIdx := 0 }

/-- An outcome as seen from outside the core. -/
def visibleOutcome : Host.Outcome State Fault Refusal → Host.Outcome State Fault Refusal
  | .next s => .next s.visible
  | .fault r => .fault r
  | .refused r => .refused r

/-- The configuration of the core is the same: the shape registers and the parameters (R34). -/
def SameConfig (s t : State) : Prop :=
  t.params = s.params ∧ t.sel = s.sel ∧ t.width = s.width ∧ t.height = s.height
    ∧ t.pixlen = s.pixlen

/-- The internal registers of R31 are the same. -/
def SameInternals (s t : State) : Prop :=
  t.crc = s.crc ∧ t.adlerA = s.adlerA ∧ t.adlerB = s.adlerB ∧ t.fidx = s.fidx ∧ t.row = s.row
    ∧ t.col = s.col ∧ t.blkRem = s.blkRem ∧ t.blkIdx = s.blkIdx

/-- Every byte of PIXMEM reads as before. -/
def SameMemory (s t : State) : Prop := ∀ a, Memory.read t.pixmem a = Memory.read s.pixmem a

/-- The host agent is where it was: its pending operations, its policy and what it has read. -/
def SameHost (s t : State) : Prop :=
  t.program = s.program ∧ t.policy = s.policy ∧ t.reads = s.reads

/-- `t` with what the sink handshake writes taken back from `s`: OUTCNT, the sink, the answer, and
STATUS (R285). -/
def State.undoHandshake (t s : State) : State :=
  { t with
    outcnt := s.outcnt
    sink := s.sink
    answer := s.answer
    phase := s.phase
    cause := s.cause }

/-- The core offers `OUT[k]` and the sink accepts it (R285's precondition). -/
structure Offering (s : State) (k : Nat) : Prop where
  busy : s.phase = .busy
  at_offset : s.outcnt.toNat = k
  accepted : s.answer = some .accept

/-- The SINK ACCEPT step delivered `b`: OUTCNT counts it, and the last byte of OUT completes the command
(R285, R286). -/
structure Delivered (s t : State) (b : Byte) : Prop where
  sink : t.sink = s.sink ++ [b]
  outcnt : t.outcnt = s.outcnt + 1
  answer : t.answer = none
  last : t.outcnt.toNat = s.outLen → t.phase = .done ∧ t.cause = .none
  more : t.outcnt.toNat ≠ s.outLen → t.phase = s.phase ∧ t.cause = s.cause

/-- The CRC register after byte `b` at offset `j` of a chunk with a payload of `len` bytes: CRC_INIT
before the first type byte, CRC_UPDATE at type and payload bytes, untouched at length and CRC bytes
(R240, R242, R246 to R249). -/
def chunkCrc (len j : Nat) (crc : Word) (b : Byte) : Word :=
  if j < 4 then crc
  else if j = 4 then crcUpdate 0xFFFFFFFF b
  else if j < 8 + len then crcUpdate crc b
  else crc

/-- The host's register map: each offset and the value it reads as (R22, R137). -/
def registerMap (s : State) : List (Nat × Nat) :=
  [(0x00, 0), (0x04, s.sel.code), (0x08, s.width.toNat), (0x0C, s.height.toNat),
    (0x10, s.pixlen.toNat % 2 ^ 32), (0x14, s.pixlen.toNat / 2 ^ 32),
    (0x18, s.cause.code * 16 + s.phase.code), (0x1C, s.sinkcode.toNat),
    (0x20, s.outcnt.toNat % 2 ^ 32), (0x24, s.outcnt.toNat / 2 ^ 32),
    (0x28, s.pred.toNat % 2 ^ 32), (0x2C, s.pred.toNat / 2 ^ 32 % 2 ^ 32),
    (0x30, s.pred.toNat / 2 ^ 64 % 2 ^ 32), (0x34, s.pred.toNat / 2 ^ 96),
    (0x38, 0), (0x3C, 0)]

/-- Where a chunk begins in OUT, for a StoredStream of `size` bytes (R281). -/
def chunkStart (order : ChunkOrder) (size : Nat) : Chunk → Nat
  | .ihdr => 8
  | .idat => idatStart order
  | .srgb => srgbStart size order
  | .iend => 58 + size

/-- A chunk's payload length (R246). -/
def chunkLen (size : Nat) : Chunk → Nat
  | .ihdr => 13
  | .idat => size
  | .srgb => 1
  | .iend => 0

/-- The stretch of OUT the CRC register has absorbed when OUTCNT is `k`: the type and payload bytes of
the chunk `k` stands in, as far as they come before `k`; none before the chunk's CRC_INIT has been
followed by an update (R240, R242). -/
def crcSpan (order : ChunkOrder) (n k : Nat) : Option (Nat × Nat) :=
  let span (c : Chunk) :=
    let start := chunkStart order (streamSize n) c
    (start + 4, min k (start + 8 + chunkLen (streamSize n) c))
  match slotAt order n k with
  | .signature _ => none
  | .nothing => none
  | .chunk _ (.length _) => none
  | .chunk c (.type i) => if i = 0 then none else some (span c)
  | .chunk c (.payload _) => some (span c)
  | .chunk c (.crc _) => some (span c)
  | .stream _ => some (span .idat)

/-- The framed bytes before stream offset `o` (R215). -/
def framedBefore (n o : Nat) : Nat :=
  match streamSlot n o with
  | .zhdr _ => 0
  | .nonfinal b _ => b * 65535
  | .data b i => b * 65535 + i
  | .final _ => fullBlocks n * 65535
  | .trailer _ => n

/-- The framed bytes before offset `k` of OUT. -/
def framedAt (order : ChunkOrder) (n k : Nat) : Nat :=
  if k < idatStart order + 8 then 0 else framedBefore n (k - (idatStart order + 8))

/-- `(blkIdx, blkRem)` at offset `k` of OUT (R205, log 9). -/
def blockAt (order : ChunkOrder) (n k : Nat) : Nat × Nat :=
  if k < idatStart order + 8 then (0, 0)
  else
    match streamSlot n (k - (idatStart order + 8)) with
    | .zhdr _ => (0, 0)
    | .nonfinal b _ => (b, 0)
    | .data b i => (b, (if b < fullBlocks n then 65535 else lastBlock n) - i)
    | .final _ => (fullBlocks n, 0)
    | .trailer _ => (fullBlocks n, 0)

/-- The streaming units agree with the closed form of OUT, for the pixel buffer in PIXMEM (R283). -/
structure Streaming (s : State) (pixels : List Byte) : Prop where
  counted : s.outcnt.toNat ≤ s.sink.length
  delivered : s.delivered = (s.out pixels).take s.outcnt.toNat
  fidx : s.fidx.toNat = framedAt s.params.order s.framedLen s.outcnt.toNat
  row : s.row.toNat = s.fidx.toNat / (s.stride + 1)
  col : s.col.toNat = s.fidx.toNat % (s.stride + 1)
  adler : (s.adlerA, s.adlerB) = adlerSums ((s.frame pixels).take s.fidx.toNat)
  crc : ∀ span, crcSpan s.params.order s.framedLen s.outcnt.toNat = some span →
    s.crc = crcRun (((s.out pixels).take span.2).drop span.1)
  block : (s.blkIdx.toNat, s.blkRem.toNat) = blockAt s.params.order s.framedLen s.outcnt.toNat

/-- What a running ENCODE has established and where it stands (R21, R29, R30, R131). -/
structure Running (s : State) : Prop where
  shape : s.ShapeMatches
  fits : s.PayloadFits
  inside : s.outcnt.toNat < s.outLen
  pred : s.pred.toNat = predictedSize s.sel s.width.toNat s.height.toNat

/-- What the host-visible registers keep to in every run (R26, R28, R29, R286, R300). -/
structure RegisterInv (s : State) : Prop where
  flags : s.cause = .none ↔ s.phase ≠ .error
  sinkcode : s.cause ≠ .sinkFailure → s.sinkcode = 0
  idle : s.phase = .idle → s.outcnt = 0 ∧ s.pred = 0
  busy : s.phase = .busy → Running s
  done : s.phase = .done → s.outcnt.toNat = 0 ∨ s.outcnt.toNat = s.pred.toNat
  untouched : s.cause = .contractViolation ∨ s.cause = .lengthOverflow → s.outcnt = 0
  failed : s.cause = .sinkFailure → s.outcnt.toNat < s.pred.toNat
  bounded : s.outcnt.toNat < 2 ^ 33

/-- The invariant of the machine: registers, PIXMEM's form, the parameters' ranges, and the streaming
units while BUSY. -/
structure Inv (s : State) : Prop where
  registers : RegisterInv s
  memory : Memory.wf s.pixmem
  params : s.params.Admissible
  streaming : s.phase = .busy → ∀ pixels, s.pixels = some pixels → Streaming s pixels

/-- The host has supplied what the command reads: PIXLEN bytes of PIXMEM (R61, 93). -/
def BufferComplete (s : State) : Prop := ∃ pixels, s.pixels = some pixels

/-- A step that does not end in a fault. -/
def SafeStep (s : State) : Prop := ∀ r, step s ≠ .fault r

/-- The host is ready and the next ENCODE is well-formed (R343): not BUSY, PIXLEN matching the shape,
the payload inside MAX_CHUNK_LEN, the pixel buffer in PIXMEM. -/
structure Ready (s : State) (pixels : List Byte) : Prop where
  quiet : s.phase ≠ .busy
  shape : s.ShapeMatches
  fits : s.PayloadFits
  buffer : s.pixels = some pixels

end Sys2Proof.Machine
end

