-- ==== Sys2Proof/Certificates/Slice0/Obligations.lean ====
section
/-! DEFINITION. The statements about the core, for the provers. Each docstring names the rules of
spec/ it formalises. -/

open Sys2Proof Sys2Proof.Machine

/-! ## Encoding -/

/-- R90, R91, R96 to R103: no bit of an encoding is dropped. Decoding the encoding of any well-formed
instruction gives it back, with every operand at every value. -/
def Obligations.DecodeInvertsEncode : Prop :=
  ∀ i : Instr, i.WellFormed → decode (encode i) = .ok i

/-- R90, R91: every CMD and FORMAT word is the encoding of the instruction it decodes to, and that
instruction is well-formed. -/
def Obligations.EncodeInvertsRegisterWords : Prop :=
  ∀ w : Word,
    encode (decodeCmd w) = .busWrite 0x00 w ∧ (decodeCmd w).WellFormed
      ∧ encode (decodeFormat w) = .busWrite 0x04 w ∧ (decodeFormat w).WellFormed

/-- R90, R91, R96, R98, R101, R103: one word of each kind, written out from the tables of
30_encoding. -/
def Obligations.WrittenOutWordsDecode : Prop :=
  decode (.busWrite 0x00 0x00000001) = .ok (.encode 0)
    ∧ decode (.busWrite 0x00 0x00000002) = .ok (.predict 0)
    ∧ decode (.busWrite 0x04 0xFFFFFFFF) = .ok (.formatRGBA 0x3FFFFFFF)
    ∧ decode (.record [0x89, 0x50, 0x4E, 0x47, 0x0D, 0x0A, 0x1A, 0x0A]) = .ok .signature
    ∧ decode (.record [0x49, 0x44, 0x41, 0x54]) = .ok .chunkIDAT
    ∧ decode (.record [0x78, 0x01]) = .ok .zhdr
    ∧ decode (.record [0x00, 0xFF, 0xFF, 0x00, 0x00]) = .ok .blkhdrNonfinal
    ∧ decode (.record [0x01, 0x04, 0x00, 0xFB, 0xFF]) = .ok (.blkhdrFinal 4)

/-- R93: no CMD or FORMAT word is illegal, OP 3 does what NOP does, and words that differ only in bits
31:2 do the same in every state. -/
def Obligations.ReservedBitsAreIgnored : Prop :=
  ∀ (v w : Word) (s : State),
    (decode (.busWrite 0x00 w) = .ok (decodeCmd w) ∧ decode (.busWrite 0x04 w) = .ok (decodeFormat w))
      ∧ (v.toNat % 4 = 0 → w.toNat % 4 = 3 → exec (decodeCmd w) s = exec (decodeCmd v) s)
      ∧ (v.toNat % 4 = w.toNat % 4 →
        exec (decodeCmd v) s = exec (decodeCmd w) s ∧ exec (decodeFormat v) s = exec (decodeFormat w) s)

/-- R206: the LEN and NLEN fields of any stored block. -/
def Obligations.LengthFieldsAreComplements : Prop :=
  ∀ len : BitVec 16,
    le16 len ++ le16 (~~~len)
        = [len.extractLsb' 0 8, len.extractLsb' 8 8,
          0xFF - len.extractLsb' 0 8, 0xFF - len.extractLsb' 8 8]
      ∧ len.toNat + (~~~len).toNat = 0xFFFF

/-! ## What a step runs -/

/-- R130, R135, R282: a step executes the instruction it decodes. A 32-bit write whose register and word
decode runs that instruction in the state without the write. A sink answer runs the operation that owns
OUTCNT, with the answer on the handshake register, which is the model's choice (log 5). The third clause
is the model's choice (log 13): WAIT answers one offered byte in a step by the policy and stays
pending; R95 says only that the host acts as the sink per its policy and polls STATUS. -/
def Obligations.StepRunsTheDecodedInstruction : Prop :=
  (∀ (s : State) (off : Nat) (w : Word) (rest : List HostOp) (i : Instr),
    s.program = .write off .word w :: rest → decode (.busWrite off w) = .ok i →
    step s = exec i { s with program := rest })
  ∧ (∀ (s : State) (a : SinkAnswer) (rest : List HostOp) (i : Instr),
    s.program = .answer a :: rest → s.owner = some i →
    step s = exec i { s with program := rest, answer := some a })
  ∧ (∀ (s : State) (rest : List HostOp) (i : Instr),
    s.program = .wait :: rest → s.owner = some i →
    step s = exec i { s with answer := some (s.policy.answer s.outcnt.toNat) })

/-- Log 14 (the model's own construction): a well-formed instruction placed by `placeInstr` is the one
the next step fetches. -/
def Obligations.PlacedInstructionIsFetched : Prop :=
  ∀ (i : Instr) (s : State), i.WellFormed → ∃ s', fetch (s.placeInstr i) = .instr i s'

/-- R80, R314: a step of one core leaves every other core as it was. -/
def Obligations.OtherInstancesDoNotMove : Prop :=
  ∀ (k : Nat) (cores after : List State), stepInstance k cores = .next after →
    after.length = cores.length ∧ (∀ j, j ≠ k → after[j]? = cores[j]?)
      ∧ (∀ s, cores[k]? = some s → ∃ t, step s = .next t ∧ after[k]? = some t)

/-! ## Commands -/

/-- R133: NOP and OP 3 have no effect in any state, for every word that carries them. -/
def Obligations.NopAndReservedOp3HaveNoEffect : Prop :=
  (∀ (rsv : Nat) (s : State), exec (.nop rsv) s = .next s ∧ exec (.reservedOp3 rsv) s = .next s)
  ∧ (∀ (w : Word) (s : State), w.toNat % 4 = 0 ∨ w.toNat % 4 = 3 → exec (decodeCmd w) s = .next s)

/-- R134: a CMD write while BUSY is ignored, whatever its OP. -/
def Obligations.CommandWhileBusyIsIgnored : Prop :=
  ∀ (s : State) (w : Word) (rest : List HostOp), s.phase = .busy →
    s.program = .write 0x00 .word w :: rest →
    step s = .next { s with program := rest } ∧ exec (decodeCmd w) s = .next s

/-- R132: PREDICT completes in its accept step: OUTCNT and SINKCODE 0, PRED the predicted size without
truncation, DONE and NONE; PIXLEN and PIXMEM play no part and nothing else changes. -/
def Obligations.PredictCompletesInItsAcceptStep : Prop :=
  ∀ (rsv : Nat) (s : State), s.phase ≠ .busy →
    ∃ t, exec (.predict rsv) s = .next t
      ∧ t.outcnt = 0 ∧ t.sinkcode = 0
      ∧ t.pred.toNat = predictedSize s.sel s.width.toNat s.height.toNat
      ∧ t.phase = .done ∧ t.cause = .none
      ∧ SameMemory s t
      ∧ { t with outcnt := s.outcnt, sinkcode := s.sinkcode, pred := s.pred, phase := s.phase,
                 cause := s.cause } = s

/-- R131, success: with PIXLEN matching the shape and the payload inside MAX_CHUNK_LEN, ENCODE's accept
step makes the core BUSY and initialises every internal register; nothing reaches the sink. -/
def Obligations.EncodeStartsEmission : Prop :=
  ∀ (rsv : Nat) (s : State), s.phase ≠ .busy →
    s.pixlen.toNat = s.width.toNat * s.height.toNat * s.sel.channels →
    streamSize (framedLen s.sel s.width.toNat s.height.toNat) ≤ s.params.maxChunkLen.toNat →
    ∃ t, exec (.encode rsv) s = .next t
      ∧ t.outcnt = 0 ∧ t.sinkcode = 0
      ∧ t.pred.toNat = predictedSize s.sel s.width.toNat s.height.toNat
      ∧ t.phase = .busy ∧ t.cause = .none
      ∧ t.crc = 0xFFFFFFFF ∧ t.adlerA = 1 ∧ t.adlerB = 0 ∧ t.fidx = 0 ∧ t.row = 0 ∧ t.col = 0
      ∧ t.blkIdx = 0 ∧ t.blkRem = 0
      ∧ SameConfig s t ∧ SameMemory s t ∧ SameHost s t ∧ t.sink = s.sink ∧ t.answer = s.answer

/-- R270, R271, R302, R304, R306: the two errors of the accept step, the length check first. STATE is
ERROR, OUTCNT and SINKCODE are 0, PRED is written, and nothing else changes: the sink is untouched. -/
def Obligations.EncodeErrorsLeaveTheSinkUntouched : Prop :=
  ∀ (rsv : Nat) (s : State), s.phase ≠ .busy →
    (s.pixlen.toNat ≠ s.width.toNat * s.height.toNat * s.sel.channels
      ∨ s.params.maxChunkLen.toNat < streamSize (framedLen s.sel s.width.toNat s.height.toNat)) →
    ∃ t, exec (.encode rsv) s = .next t
      ∧ t.outcnt = 0 ∧ t.sinkcode = 0
      ∧ t.pred.toNat = predictedSize s.sel s.width.toNat s.height.toNat
      ∧ t.phase = .error
      ∧ (s.pixlen.toNat ≠ s.width.toNat * s.height.toNat * s.sel.channels →
          t.cause = .contractViolation)
      ∧ (s.pixlen.toNat = s.width.toNat * s.height.toNat * s.sel.channels →
          t.cause = .lengthOverflow)
      ∧ SameMemory s t ∧ t.sink = s.sink
      ∧ { t with outcnt := s.outcnt, sinkcode := s.sinkcode, pred := s.pred, phase := s.phase,
                 cause := s.cause } = s

/-- R307, R350, what each command does in ERROR: NOP and OP 3 leave STATE and CAUSE in place, PREDICT
sets DONE and NONE, and an ENCODE whose checks pass sets BUSY and NONE. An ENCODE that fails a check
stays in ERROR with its own cause (EncodeErrorsLeaveTheSinkUntouched), and a reset leaves ERROR too
(ResetClearsTheCore). -/
def Obligations.CommandsInError : Prop :=
  ∀ (rsv : Nat) (s t : State), s.phase = .error →
    (exec (.nop rsv) s = .next t → t.phase = .error ∧ t.cause = s.cause)
    ∧ (exec (.reservedOp3 rsv) s = .next t → t.phase = .error ∧ t.cause = s.cause)
    ∧ (exec (.predict rsv) s = .next t → t.phase = .done ∧ t.cause = .none)
    ∧ (exec (.encode rsv) s = .next t → s.ShapeMatches → s.PayloadFits →
        t.phase = .busy ∧ t.cause = .none)

/-! ## Registers -/

/-- R24, R91, R135, R160: each FORMAT word selects its format when not BUSY, and writes nothing else;
FORMAT then reads as SEL, with the channel count and colour type of the table. -/
def Obligations.FormatWordsSelectTheirFormat : Prop :=
  ∀ (rsv : Nat) (s : State), s.phase ≠ .busy →
    exec (.formatGray rsv) s = .next { s with sel := .gray }
    ∧ exec (.formatGrayAlpha rsv) s = .next { s with sel := .grayAlpha }
    ∧ exec (.formatRGB rsv) s = .next { s with sel := .rgb }
    ∧ exec (.formatRGBA rsv) s = .next { s with sel := .rgba }
    ∧ { s with sel := .gray }.readReg .format = 0
    ∧ { s with sel := .grayAlpha }.readReg .format = 1
    ∧ { s with sel := .rgb }.readReg .format = 2
    ∧ { s with sel := .rgba }.readReg .format = 3
    ∧ (ColorFormat.gray.channels, ColorFormat.gray.colourType) = (1, 0)
    ∧ (ColorFormat.grayAlpha.channels, ColorFormat.grayAlpha.colourType) = (2, 4)
    ∧ (ColorFormat.rgb.channels, ColorFormat.rgb.colourType) = (3, 2)
    ∧ (ColorFormat.rgba.channels, ColorFormat.rgba.colourType) = (4, 6)

/-- R135: a configuration write outside BUSY sets its register, and changes no other state. -/
def Obligations.ConfigurationWriteSetsItsRegister : Prop :=
  ∀ (s : State) (off : Nat) (v : Word) (rest : List HostOp), s.phase ≠ .busy →
    s.program = .write off .word v :: rest →
    (off = 0x04 → ∃ t, step s = .next t ∧ (t.readReg .format).toNat = v.toNat % 4
      ∧ { t with sel := s.sel, program := s.program } = s ∧ t.program = rest)
    ∧ (off = 0x08 → step s = .next { s with width := v, program := rest })
    ∧ (off = 0x0C → step s = .next { s with height := v, program := rest })
    ∧ (off = 0x10 → ∃ t, step s = .next t
      ∧ t.pixlen.toNat = s.pixlen.toNat / 2 ^ 32 * 2 ^ 32 + v.toNat
      ∧ { t with pixlen := s.pixlen, program := s.program } = s ∧ t.program = rest)
    ∧ (off = 0x14 → ∃ t, step s = .next t
      ∧ t.pixlen.toNat = v.toNat * 2 ^ 32 + s.pixlen.toNat % 2 ^ 32
      ∧ { t with pixlen := s.pixlen, program := s.program } = s ∧ t.program = rest)

/-- R136: a configuration write while BUSY is ignored. -/
def Obligations.ConfigurationWriteWhileBusyIsIgnored : Prop :=
  ∀ (s : State) (off : Nat) (v : Word) (rest : List HostOp), s.phase = .busy →
    off = 0x04 ∨ off = 0x08 ∨ off = 0x0C ∨ off = 0x10 ∨ off = 0x14 →
    s.program = .write off .word v :: rest →
    step s = .next { s with program := rest } ∧ exec (decodeFormat v) s = .next s

/-- R22, R66: a write to a read-only or reserved register is ignored, in every state. -/
def Obligations.ReadOnlyRegistersIgnoreWrites : Prop :=
  ∀ (s : State) (off : Nat) (v : Word) (rest : List HostOp),
    0x18 ≤ off → off < 0x40 → off % 4 = 0 → s.program = .write off .word v :: rest →
    step s = .next { s with program := rest }

/-- R137: a register read returns the register's value with reserved bits 0, CMD and reserved offsets
reading 0; it changes nothing of the core, in any state. -/
def Obligations.RegisterReadReturnsItsValue : Prop :=
  ∀ (s : State) (off value : Nat) (rest : List HostOp), (off, value) ∈ registerMap s →
    s.program = .read off .word :: rest →
    ∃ v : Word, v.toNat = value
      ∧ step s = .next { s with program := rest, reads := s.reads ++ [v] }

/-- R67: sub-word, misaligned and out-of-range accesses have no meaning: the model refuses them. -/
def Obligations.UndefinedRegisterAccessIsRefused : Prop :=
  ∀ (s : State) (off : Nat) (size : AccessSize) (v : Word) (rest : List HostOp),
    size ≠ .word ∨ off % 4 ≠ 0 ∨ 0x40 ≤ off →
    (s.program = .write off size v :: rest → step s = .refused (.registerAccess off size))
    ∧ (s.program = .read off size :: rest → step s = .refused (.registerAccess off size))

/-- R340, R341: a reset in any state, a running ENCODE included, leaves every host-visible register at
its reset value, PIXMEM and the bytes the sink has accepted as they were, and offers no byte. -/
def Obligations.ResetClearsTheCore : Prop :=
  ∀ (s : State) (rest : List HostOp), s.program = .reset :: rest →
    ∃ t, step s = .next t
      ∧ t.sel = .gray ∧ t.width = 0 ∧ t.height = 0 ∧ t.pixlen = 0
      ∧ t.phase = .idle ∧ t.cause = .none ∧ t.sinkcode = 0 ∧ t.outcnt = 0 ∧ t.pred = 0
      ∧ t.owner = none ∧ t.pixmem = s.pixmem ∧ t.sink = s.sink ∧ t.params = s.params
      ∧ t.program = rest ∧ t.policy = s.policy ∧ t.reads = s.reads

/-! ## PIXMEM -/

/-- R138, R61: a PIXMEM write outside BUSY lands in the bytes it names and in no other, and touches no
register. -/
def Obligations.PixmemWriteLandsInItsBytes : Prop :=
  ∀ (s : State) (a : BitVec 64) (bytes : List Byte) (rest : List HostOp), s.phase ≠ .busy →
    a.toNat + bytes.length ≤ 2 ^ 64 → s.program = .pix a bytes :: rest →
    ∃ t, step s = .next t
      ∧ (∀ x, Memory.read t.pixmem x
          = if a.toNat ≤ x ∧ x < a.toNat + bytes.length then bytes[x - a.toNat]?
            else Memory.read s.pixmem x)
      ∧ { t with pixmem := s.pixmem, program := s.program } = s ∧ t.program = rest

/-- R62: the host has no PIXMEM write while BUSY. -/
def Obligations.PixmemWriteWhileBusyIsRefused : Prop :=
  ∀ (s : State) (a : BitVec 64) (bytes : List Byte) (rest : List HostOp), s.phase = .busy →
    s.program = .pix a bytes :: rest → step s = .refused .pixmemWriteWhileBusy

/-- R60, R61: the core only reads PIXMEM. A step that is not the host's own PIXMEM write leaves it as
it was. -/
def Obligations.CoreNeverWritesPixmem : Prop :=
  ∀ s t : State, step s = .next t → (∀ a bytes rest, s.program ≠ .pix a bytes :: rest) →
    t.pixmem = s.pixmem

/-- Every step keeps PIXMEM's canonical form, so that equal contents are equal data (R61, log 2). -/
def Obligations.PixmemKeepsItsForm : Prop :=
  ∀ s t : State, Memory.wf s.pixmem → step s = .next t → Memory.wf t.pixmem

/-- 93 (a PIXMEM buffer shorter than PIXLEN declares): at a payload byte whose PIXMEM byte is missing,
the core has no step. -/
def Obligations.MissingPixelByteStopsTheCore : Prop :=
  ∀ (s : State) (b i : Nat), s.phase = .busy → s.slot = .stream (.data b i) → s.col ≠ 0 →
    Memory.read s.pixmem (s.row.toNat * s.stride + (s.col.toNat - 1)) = none →
    exec .chunkIDAT s
      = .fault (.pixmemMissing (s.row.toNat * s.stride + (s.col.toNat - 1)))

/-! ## The record operations, one byte each -/

/-- R272, R285: SIGNATURE delivers `SIG[OUTCNT]`; no CRC covers it, and nothing else changes. -/
def Obligations.SignatureByteIsDelivered : Prop :=
  ∀ (s : State) (k : Nat), Offering s k → k < 8 →
    ∃ t, exec .signature s = .next t
      ∧ Delivered s t (byteOf [0x89, 0x50, 0x4E, 0x47, 0x0D, 0x0A, 0x1A, 0x0A] k)
      ∧ SameMemory s t ∧ t.undoHandshake s = s

/-- R273, R274, R281, R246 to R249: CHUNK_IHDR delivers byte `j` of length, type, payload and CRC, keeps
the CRC register by chunk offset, and changes nothing else. -/
def Obligations.HeaderChunkByteIsDelivered : Prop :=
  ∀ (s : State) (j : Nat), Offering s (8 + j) → j < 25 →
    ∃ t b, exec .chunkIHDR s = .next t
      ∧ b = byteOf (be32 13 ++ [0x49, 0x48, 0x44, 0x52]
          ++ (be32 s.width ++ be32 s.height ++ [8, s.sel.colourType, 0, 0, 0])
          ++ be32 (s.crc ^^^ 0xFFFFFFFF)) j
      ∧ Delivered s t b ∧ t.crc = chunkCrc 13 j s.crc b
      ∧ SameMemory s t ∧ { t.undoHandshake s with crc := s.crc } = s

/-- R276, R281: CHUNK_sRGB delivers byte `j` of length 1, type, the payload byte 0 and CRC. -/
def Obligations.ColourSpaceChunkByteIsDelivered : Prop :=
  ∀ (s : State) (j start : Nat), Offering s (start + j) → j < 13 →
    (s.params.order = .idatFirst → start = 45 + s.streamSize) →
    (s.params.order = .srgbFirst → start = 33) →
    ∃ t b, exec .chunkSRGB s = .next t
      ∧ b = byteOf (be32 1 ++ [0x73, 0x52, 0x47, 0x42] ++ [0x00] ++ be32 (s.crc ^^^ 0xFFFFFFFF)) j
      ∧ Delivered s t b ∧ t.crc = chunkCrc 1 j s.crc b
      ∧ SameMemory s t ∧ { t.undoHandshake s with crc := s.crc } = s

/-- R277, R281: CHUNK_IEND delivers byte `j` of length 0, type and CRC; the last one ends the
command. -/
def Obligations.TerminatorChunkByteIsDelivered : Prop :=
  ∀ (s : State) (j : Nat), Offering s (58 + s.streamSize + j) → j < 12 →
    ∃ t b, exec .chunkIEND s = .next t
      ∧ b = byteOf (be32 0 ++ [0x49, 0x45, 0x4E, 0x44] ++ be32 (s.crc ^^^ 0xFFFFFFFF)) j
      ∧ Delivered s t b ∧ t.crc = chunkCrc 0 j s.crc b
      ∧ SameMemory s t ∧ { t.undoHandshake s with crc := s.crc } = s

/-- R275, R281: CHUNK_IDAT delivers its length (the stream size), its type, and after the payload its
CRC; the packager's registers are untouched. -/
def Obligations.PixelDataChunkFrameIsDelivered : Prop :=
  ∀ (s : State) (j start : Nat), Offering s (start + j) →
    j < 8 ∨ (8 + s.streamSize ≤ j ∧ j < 12 + s.streamSize) →
    (s.params.order = .idatFirst → start = 33) → (s.params.order = .srgbFirst → start = 46) →
    ∃ t b, exec .chunkIDAT s = .next t
      ∧ b = (if j < 8 then
            byteOf (be32 (BitVec.ofNat 32 s.streamSize) ++ [0x49, 0x44, 0x41, 0x54]) j
          else byteOf (be32 (s.crc ^^^ 0xFFFFFFFF)) (j - 8 - s.streamSize))
      ∧ Delivered s t b ∧ t.crc = chunkCrc s.streamSize j s.crc b
      ∧ SameMemory s t ∧ { t.undoHandshake s with crc := s.crc } = s

/-- R201, R215: ZHDR delivers the two header bytes at the start of the stream. -/
def Obligations.StreamHeaderByteIsDelivered : Prop :=
  ∀ (s : State) (i start : Nat), Offering s (start + 8 + i) → i < 2 →
    (s.params.order = .idatFirst → start = 33) → (s.params.order = .srgbFirst → start = 46) →
    ∃ t b, exec .zhdr s = .next t
      ∧ b = byteOf [s.params.cmf, s.params.flg] i
      ∧ Delivered s t b ∧ t.crc = crcUpdate s.crc b
      ∧ SameMemory s t ∧ { t.undoHandshake s with crc := s.crc } = s

/-- R203, R215: BLKHDR_NONFINAL delivers 00 FF FF 00 00 before each full block; its last byte loads
blkRem with 65535 (which of the five does is the model's choice, log 9). -/
def Obligations.NonfinalBlockHeaderIsDelivered : Prop :=
  ∀ (s : State) (blk i start : Nat), Offering s (start + 8 + (2 + 65540 * blk) + i) → i < 5 →
    blk < s.framedLen / 65535 →
    (s.params.order = .idatFirst → start = 33) → (s.params.order = .srgbFirst → start = 46) →
    ∃ t b, exec .blkhdrNonfinal s = .next t
      ∧ b = byteOf [0x00, 0xFF, 0xFF, 0x00, 0x00] i
      ∧ Delivered s t b ∧ t.crc = crcUpdate s.crc b
      ∧ t.blkRem.toNat = (if i = 4 then 65535 else s.blkRem.toNat)
      ∧ SameMemory s t ∧ { t.undoHandshake s with crc := s.crc, blkRem := s.blkRem } = s

/-- R204, R215: BLKHDR_FINAL with its operand m = n mod 65535 delivers 01 LE16(m) LE16(~m), once, after
the full blocks; its last byte loads blkRem with m (log 9). -/
def Obligations.TerminalBlockHeaderIsDelivered : Prop :=
  ∀ (s : State) (i start : Nat),
    Offering s (start + 8 + (2 + 65540 * (s.framedLen / 65535)) + i) → i < 5 →
    (s.params.order = .idatFirst → start = 33) → (s.params.order = .srgbFirst → start = 46) →
    ∃ t b, exec (.blkhdrFinal (s.framedLen % 65535)) s = .next t
      ∧ b = byteOf (0x01 :: (le16 (BitVec.ofNat 16 (s.framedLen % 65535))
          ++ le16 (~~~ BitVec.ofNat 16 (s.framedLen % 65535)))) i
      ∧ Delivered s t b ∧ t.crc = crcUpdate s.crc b
      ∧ t.blkRem.toNat = (if i = 4 then s.framedLen % 65535 else s.blkRem.toNat)
      ∧ SameMemory s t ∧ { t.undoHandshake s with crc := s.crc, blkRem := s.blkRem } = s

/-- R207, R182, R184, R212, R215: at a payload offset of block `blk`, CHUNK_IDAT delivers FRAMER_NEXT's
byte, the tag in column 0 and otherwise a PIXMEM byte unchanged, and advances the framer, the Adler
sums, the CRC and blkRem; blkIdx moves on after a full block (log 9). -/
def Obligations.PayloadByteIsDelivered : Prop :=
  ∀ (s : State) (blk i start : Nat) (b : Byte),
    Offering s (start + 8 + (7 + 65540 * blk) + i) →
    (blk < s.framedLen / 65535 ∧ i < 65535)
      ∨ (blk = s.framedLen / 65535 ∧ i < s.framedLen % 65535) →
    (s.params.order = .idatFirst → start = 33) → (s.params.order = .srgbFirst → start = 46) →
    (s.col = 0 → b = 0x00) →
    (s.col ≠ 0 → Memory.read s.pixmem (s.row.toNat * s.stride + (s.col.toNat - 1)) = some b) →
    ∃ t, exec .chunkIDAT s = .next t
      ∧ Delivered s t b
      ∧ t.crc = crcUpdate s.crc b
      ∧ t.adlerA.toNat = (s.adlerA.toNat + b.toNat) % 65521
      ∧ t.adlerB.toNat = (s.adlerB.toNat + t.adlerA.toNat) % 65521
      ∧ t.fidx = s.fidx + 1
      ∧ (s.col.toNat = s.stride → t.row = s.row + 1 ∧ t.col = 0)
      ∧ (s.col.toNat ≠ s.stride → t.row = s.row ∧ t.col = s.col + 1)
      ∧ t.blkRem = s.blkRem - 1
      ∧ t.blkIdx = (if s.blkRem = 1 ∧ s.blkIdx.toNat < s.framedLen / 65535 then s.blkIdx + 1
          else s.blkIdx)
      ∧ SameMemory s t
      ∧ { t.undoHandshake s with
          crc := s.crc, adlerA := s.adlerA, adlerB := s.adlerB, fidx := s.fidx, row := s.row,
          col := s.col, blkRem := s.blkRem, blkIdx := s.blkIdx } = s

/-- R209, R213, R215: after the last block, CHUNK_IDAT delivers ADLER_OUT big-endian. -/
def Obligations.TrailerByteIsDelivered : Prop :=
  ∀ (s : State) (i start : Nat),
    Offering s (start + 8 + (7 + 65540 * (s.framedLen / 65535) + s.framedLen % 65535) + i) → i < 4 →
    (s.params.order = .idatFirst → start = 33) → (s.params.order = .srgbFirst → start = 46) →
    ∃ t b, exec .chunkIDAT s = .next t
      ∧ b = byteOf (be32 (BitVec.ofNat 32 (s.adlerB.toNat * 65536 + s.adlerA.toNat))) i
      ∧ Delivered s t b ∧ t.crc = crcUpdate s.crc b
      ∧ SameMemory s t ∧ { t.undoHandshake s with crc := s.crc } = s

/-- R64, R282, R287, R301: when the sink answers FAIL, a record operation that has a next state delivers
nothing and advances no unit: SINKCODE takes the code, STATE and CAUSE the error, OUTCNT stays. -/
def Obligations.SinkFailureAdvancesNothing : Prop :=
  ∀ (i : Instr) (s t : State) (code : Word),
    (i = .signature ∨ i = .chunkIHDR ∨ i = .chunkIDAT ∨ i = .chunkSRGB ∨ i = .chunkIEND
      ∨ i = .zhdr ∨ i = .blkhdrNonfinal ∨ ∃ m, i = .blkhdrFinal m) →
    s.answer = some (.fail code) → exec i s = .next t →
    t = { s with answer := none, sinkcode := code, phase := .error, cause := .sinkFailure }

/-! ## Whole-machine rules -/

/-- R284, R34, R136, R134, R64, R65: while BUSY, only a sink answer, a WAIT that answers for the sink,
or a reset changes the core. Every other step leaves the registers, the units, PIXMEM and the sink as
they were. -/
def Obligations.OnlySinkAnswersAdvanceARunningEncode : Prop :=
  ∀ s t : State, s.phase = .busy → step s = .next t →
    (∀ a rest, s.program ≠ .answer a :: rest) → (∀ rest, s.program ≠ .wait :: rest) →
    (∀ rest, s.program ≠ .reset :: rest) →
    { t with program := s.program, policy := s.policy, reads := s.reads } = s

/-- R300, R302, R303, R304, R305, R306: each cause has one origin (a FAIL by the policy comes in a WAIT,
log 13). A step that makes CAUSE something it
was not either made it NONE, or took an ENCODE outside BUSY that failed the matching check, or took the
sink's FAIL while BUSY. -/
def Obligations.EachCauseHasOneOrigin : Prop :=
  ∀ s t : State, step s = .next t → t.cause ≠ s.cause → t.cause ≠ .none →
    (t.cause = .contractViolation ∧ s.phase ≠ .busy ∧ ¬ s.ShapeMatches
      ∧ ∃ w rest, s.program = .write 0x00 .word w :: rest ∧ w.toNat % 4 = 1)
    ∨ (t.cause = .lengthOverflow ∧ s.phase ≠ .busy ∧ s.ShapeMatches ∧ ¬ s.PayloadFits
      ∧ ∃ w rest, s.program = .write 0x00 .word w :: rest ∧ w.toNat % 4 = 1)
    ∨ (t.cause = .sinkFailure ∧ s.phase = .busy
      ∧ ∃ rest, s.program = .answer (.fail t.sinkcode) :: rest
        ∨ (s.program = .wait :: rest
          ∧ s.policy = .failAt s.outcnt.toNat t.sinkcode))

/-- R27: STATUS changes only at an accepted command, at a sink answer while BUSY, or at a reset. -/
def Obligations.StatusChangesOnlyWhereTheSpecSays : Prop :=
  ∀ s t : State, step s = .next t → (t.phase, t.cause) ≠ (s.phase, s.cause) →
    (s.phase ≠ .busy ∧ ∃ w rest, s.program = .write 0x00 .word w :: rest
        ∧ (w.toNat % 4 = 1 ∨ w.toNat % 4 = 2))
    ∨ (s.phase = .busy ∧ ∃ a rest, s.program = .answer a :: rest ∨ s.program = .wait :: rest)
    ∨ (∃ rest, s.program = .reset :: rest)

/-- R64, R73, R341: what the sink has accepted is never taken back or changed; a step adds at most one
byte, only while BUSY, and then OUTCNT goes up by one. -/
def Obligations.SinkOnlyGrows : Prop :=
  ∀ s t : State, step s = .next t →
    t.sink = s.sink ∨ (∃ b, t.sink = s.sink ++ [b] ∧ s.phase = .busy ∧ t.outcnt = s.outcnt + 1)

/-! ## Sizes, framing, packing, checksums -/

/-- R162 to R165: the closed forms of the predictor, for every shape, and the bound that makes PRED's
128 bits enough (R30). -/
def Obligations.PredictedSizeClosedForm : Prop :=
  ∀ (f : ColorFormat) (w h : Word),
    predictedSize f w.toNat h.toNat
        = 81 + h.toNat * (w.toNat * f.channels + 1)
          + 5 * (h.toNat * (w.toNat * f.channels + 1) / 65535)
      ∧ predictedSize f w.toNat h.toNat ≤ 73792605850206011461

/-- R180, R200, R279, R166: the lengths of the closed forms. `OUT` is exactly as long as predicted. -/
def Obligations.OutputLengthIsThePredictedSize : Prop :=
  ∀ (p : Params) (f : ColorFormat) (w h : Word) (pixels : List Byte),
    pixels.length = w.toNat * h.toNat * f.channels →
    (frame pixels f w.toNat h.toNat).length = framedLen f w.toNat h.toNat
      ∧ (∀ framed, (pack p framed).length = streamSize framed.length)
      ∧ (out p f w h pixels).length = predictedSize f w.toNat h.toNat

/-- R183: `fbyte` is random access into the FramedBuffer: the tag at column 0, a PIXMEM byte
elsewhere. -/
def Obligations.FramedByteIsRandomAccess : Prop :=
  ∀ (m : List Host.Cell) (f : ColorFormat) (w h : Nat) (pixels : List Byte) (k : Nat),
    pixelBuffer m (w * h * f.channels) = some pixels → k < framedLen f w h →
    fbyte m (stride f w) k = (frame pixels f w h)[k]?
      ∧ (k % (stride f w + 1) = 0 → fbyte m (stride f w) k = some 0x00)
      ∧ (k % (stride f w + 1) ≠ 0 → fbyte m (stride f w) k
          = Memory.read m (k / (stride f w + 1) * stride f w + (k % (stride f w + 1) - 1)))

/-- R184: from the position of framed byte `k`, FRAMER_NEXT gives `fbyte(k)` and moves to the position
of byte `k + 1`. -/
def Obligations.FramerNextWalksTheFramedBuffer : Prop :=
  ∀ (s : State) (k : Nat), k < s.framedLen → s.fidx.toNat = k →
    s.row.toNat = k / (s.stride + 1) → s.col.toNat = k % (s.stride + 1) →
    s.framerByte = fbyte s.pixmem s.stride k
      ∧ s.framerAdvance.row.toNat = (k + 1) / (s.stride + 1)
      ∧ s.framerAdvance.col.toNat = (k + 1) % (s.stride + 1)
      ∧ (k + 1 < 2 ^ 64 → s.framerAdvance.fidx.toNat = k + 1)

/-- R215: where the header and payload of each block and the trailer stand in the StoredStream. -/
def Obligations.StreamLayout : Prop :=
  ∀ (p : Params) (framed : List Byte),
    let n := framed.length
    let q := n / 65535
    let m := n % 65535
    let z := pack p framed
    z.take 2 = [p.cmf, p.flg]
      ∧ (∀ i, i < q → (z.drop (2 + 65540 * i)).take 5 = [0x00, 0xFF, 0xFF, 0x00, 0x00]
        ∧ (z.drop (7 + 65540 * i)).take 65535 = (framed.drop (i * 65535)).take 65535)
      ∧ (z.drop (2 + 65540 * q)).take 5
          = 0x01 :: (le16 (BitVec.ofNat 16 m) ++ le16 (~~~ BitVec.ofNat 16 m))
      ∧ (z.drop (7 + 65540 * q)).take m = framed.drop (q * 65535)
      ∧ z.drop (7 + 65540 * q + m) = be32 (adler32 framed)
      ∧ z.length - 4 = 7 + 65540 * q + m

/-- R281: where the records stand in OUT, for both chunk orders, with S the stream size. -/
def Obligations.RecordOffsets : Prop :=
  ∀ (p : Params) (f : ColorFormat) (w h : Word) (pixels : List Byte),
    pixels.length = w.toNat * h.toNat * f.channels →
    let z := pack p (frame pixels f w.toNat h.toNat)
    let size := streamSize (framedLen f w.toNat h.toNat)
    let o := out p f w h pixels
    o.take 8 = sigBytes
      ∧ (o.drop 8).take 25 = chunk tagIHDR (ihdr f w h)
      ∧ (p.order = .idatFirst →
        (o.drop 33).take (12 + size) = chunk tagIDAT z
          ∧ (o.drop (45 + size)).take 13 = chunk tagSRGB [0x00])
      ∧ (p.order = .srgbFirst →
        (o.drop 33).take 13 = chunk tagSRGB [0x00]
          ∧ (o.drop 46).take (12 + size) = chunk tagIDAT z)
      ∧ o.drop (58 + size) = chunk tagIEND []

/-- R214: Adler-32 by its recurrence and by its closed sums, and ADLER_OUT's layout. -/
def Obligations.AdlerClosedForm : Prop :=
  adlerSums [] = (1, 0)
    ∧ (∀ (framed : List Byte) (x : Byte),
      (adlerSums (framed ++ [x])).1.toNat = ((adlerSums framed).1.toNat + x.toNat) % 65521
        ∧ (adlerSums (framed ++ [x])).2.toNat
          = ((adlerSums framed).2.toNat + (adlerSums (framed ++ [x])).1.toNat) % 65521)
    ∧ (∀ framed : List Byte,
      let n := framed.length
      let a := (1 + (framed.map BitVec.toNat).sum) % 65521
      let b := (n + ((List.range n).map fun k => (n - k) * (byteOf framed k).toNat).sum) % 65521
      (adlerSums framed).1.toNat = a ∧ (adlerSums framed).2.toNat = b
        ∧ (adler32 framed).toNat = b * 65536 + a)

/-- R242: the 256-entry table form of CRC_UPDATE gives the same register. -/
def Obligations.CrcTableForm : Prop :=
  ∀ (c : Word) (b : Byte),
    crcUpdate c b = crcRounds 8 ((c ^^^ b.setWidth 32) &&& 0xFF) ^^^ (c >>> 8)

/-- R241, R242, R244: the known values of the CRC unit. -/
def Obligations.CrcKnownValues : Prop :=
  crc32 [] = 0x00000000
    ∧ crc32 [0x49, 0x45, 0x4E, 0x44] = 0xAE426082
    ∧ crc32 [0x73, 0x52, 0x47, 0x42, 0x00] = 0xAECE1CE9
    ∧ crc32 [0x31, 0x32, 0x33, 0x34, 0x35, 0x36, 0x37, 0x38, 0x39] = 0xCBF43926
    ∧ crcUpdate 0xFFFFFFFF 0x49 = 0x22FDE946

/-! ## Headline results -/

/-- The invariant holds after reset. -/
def Obligations.ResetMeetsTheInvariant : Prop := Inv State.reset

/-- R21, R26 to R30, R62, R205, R283, R286, R300: every step keeps the invariant: the flags' law, the
counters' ranges, PIXMEM's form, and, while BUSY, the agreement of every streaming unit (CRC, Adler
sums, framer position, block registers, delivered bytes) with the closed form of OUT. When inside a
block header blkRem is loaded is the model's choice (log 9). -/
def Obligations.EveryStepKeepsTheInvariant : Prop :=
  ∀ s t : State, Inv s → step s = .next t → Inv t

/-- R282, R283, R285, R286: in every state of the invariant that is BUSY with its buffer in PIXMEM, the
sink's ACCEPT delivers exactly `OUT[OUTCNT]` of the closed form, whichever unit makes it; the last byte
ends the command with OUTCNT = PRED. -/
def Obligations.AcceptDeliversTheByteOfOut : Prop :=
  ∀ (s : State) (pixels : List Byte) (rest : List HostOp), Inv s → s.phase = .busy →
    s.pixels = some pixels → s.program = .answer .accept :: rest →
    ∃ t b, step s = .next t ∧ (s.out pixels)[s.outcnt.toNat]? = some b
      ∧ t.sink = s.sink ++ [b] ∧ t.outcnt.toNat = s.outcnt.toNat + 1
      ∧ (t.outcnt.toNat = (s.out pixels).length →
          t.phase = .done ∧ t.cause = .none ∧ t.outcnt.toNat = t.pred.toNat)
      ∧ (t.outcnt.toNat ≠ (s.out pixels).length → t.phase = .busy)
      ∧ SameConfig s t ∧ SameMemory s t ∧ t.pred = s.pred ∧ t.program = rest

/-- R287, R301, R303: in every state of the invariant that is BUSY with its buffer in PIXMEM, the sink's
FAIL ends the command: SINKCODE, STATE and CAUSE are written and nothing else of the core. -/
def Obligations.FailEndsTheCommand : Prop :=
  ∀ (s : State) (code : Word) (rest : List HostOp), Inv s → s.phase = .busy → BufferComplete s →
    s.program = .answer (.fail code) :: rest →
    step s = .next { s with
      program := rest, answer := none, sinkcode := code, phase := .error, cause := .sinkFailure }

/-- R279, R285, R286, R289, R343: from any state in which the host is ready, ENCODE followed by a sink
that accepts every byte ends DONE with exactly `OUT` added to the sink and OUTCNT = PRED = |OUT|. -/
def Obligations.EncodeEmitsTheWholeFile : Prop :=
  ∀ (s : State) (pixels : List Byte) (rest : List HostOp), Ready s pixels →
    s.program = opEncode :: (List.replicate s.outLen (.answer .accept) ++ rest) →
    ∃ t, runFor (1 + s.outLen) s = .next t
      ∧ t.sink = s.sink ++ s.out pixels
      ∧ t.phase = .done ∧ t.cause = .none ∧ t.sinkcode = 0
      ∧ t.outcnt.toNat = (s.out pixels).length ∧ t.pred.toNat = (s.out pixels).length
      ∧ SameConfig s t ∧ SameMemory s t ∧ t.program = rest ∧ t.reads = s.reads

/-- R250, R287, R289: if the sink fails byte `k`, it keeps exactly `OUT[0 .. k)`, OUTCNT is `k`, and
SINKCODE is the sink's code. -/
def Obligations.SinkFailureLeavesAPrefix : Prop :=
  ∀ (s : State) (pixels : List Byte) (k : Nat) (code : Word) (rest : List HostOp),
    Ready s pixels → k < s.outLen →
    s.program = opEncode :: (List.replicate k (.answer .accept) ++ .answer (.fail code) :: rest) →
    ∃ t, runFor (2 + k) s = .next t
      ∧ t.sink = s.sink ++ (s.out pixels).take k
      ∧ t.phase = .error ∧ t.cause = .sinkFailure ∧ t.sinkcode = code
      ∧ t.outcnt.toNat = k ∧ SameConfig s t ∧ SameMemory s t ∧ t.program = rest

/-- R280: what ENCODE adds to the sink depends on the shape, the pixel bytes and the parameters alone,
not on anything a previous command left. -/
def Obligations.OutputDependsOnTheInputsAlone : Prop :=
  ∀ (s t : State) (pixels : List Byte) (k : Nat) (s' t' : State),
    Ready s pixels → Ready t pixels → SameConfig s t → k ≤ s.outLen →
    s.program = opEncode :: List.replicate k (.answer .accept) → t.program = s.program →
    runFor (1 + k) s = .next s' → runFor (1 + k) t = .next t' →
    s'.sink.drop s.sink.length = t'.sink.drop t.sink.length
      ∧ s'.phase = t'.phase ∧ s'.cause = t'.cause ∧ s'.outcnt = t'.outcnt ∧ s'.pred = t'.pred

/-- R31, R33, R340, R342: the internal registers carry nothing over. Two states outside BUSY that differ
only in them go through runs of any length that cannot be told apart outside the core. -/
def Obligations.InternalRegistersAreUnobservable : Prop :=
  ∀ (k : Nat) (s t : State), s.phase ≠ .busy → s.visible = t.visible →
    visibleOutcome (runFor k s) = visibleOutcome (runFor k t)

/-- R21, R61, R285 and 93: where the invariant holds and the buffer of a running command is in PIXMEM,
no step faults. -/
def Obligations.CompleteBufferNeverFaults : Prop :=
  ∀ s : State, Inv s → (s.phase = .busy → BufferComplete s) → SafeStep s

/-- R217: a consumer that checks every check value reads the format, the shape and the pixel buffer back
from `OUT`, for either chunk order and any admissible stream header. The consumer is the model's own
(log 19). -/
def Obligations.ConsumerReadsThePixelsBack : Prop :=
  ∀ (p : Params) (f : ColorFormat) (w h : Word) (pixels : List Byte), p.Admissible →
    pixels.length = w.toNat * h.toNat * f.channels →
    streamSize (framedLen f w.toNat h.toNat) ≤ p.maxChunkLen.toNat →
    unpack (pack p (frame pixels f w.toNat h.toNat)) = some (frame pixels f w.toNat h.toNat)
      ∧ readFile p.order (out p f w h pixels) = some (f, w, h, pixels)
end

