-- ==== Sys2Proof/Laws/Sizes.lean ====
section
/-! SUPPORT. Arithmetic of the sizes. -/

namespace Sys2Proof.Machine

theorem fullBlocks_add_lastBlock (n : Nat) : fullBlocks n * 65535 + lastBlock n = n := by
  simp only [fullBlocks, lastBlock]; omega

theorem lastBlock_lt (n : Nat) : lastBlock n < 65535 := Nat.mod_lt _ (by decide)

theorem streamSize_eq (n : Nat) : streamSize n = 11 + n + 5 * fullBlocks n := by
  simp only [streamSize]; omega

/-- The trailer begins where R215 says: `S - 4 = 7 + 65540 * q + m`. -/
theorem streamSize_eq_blocks (n : Nat) : streamSize n = 11 + 65540 * fullBlocks n + lastBlock n := by
  have := fullBlocks_add_lastBlock n
  simp only [streamSize]; omega

theorem predictedSize_eq_streamSize (f : ColorFormat) (w h : Nat) :
    predictedSize f w h = 70 + streamSize (framedLen f w h) := by
  simp only [predictedSize, chunkOverhead]; omega

theorem State.outLen_eq_predictedSize (s : State) :
    s.outLen = predictedSize s.sel s.width.toNat s.height.toNat := by
  rw [predictedSize_eq_streamSize]; rfl

theorem ColorFormat.channels_pos (f : ColorFormat) : 0 < f.channels := by cases f <;> decide

theorem ColorFormat.channels_le (f : ColorFormat) : f.channels ≤ 4 := by cases f <;> decide

/-- A row is at most `4 * (2^32 - 1)` bytes (R161). -/
theorem State.stride_lt (s : State) : s.stride < 2 ^ 34 := by
  have h1 := s.width.isLt
  have h2 := s.sel.channels_le
  have : s.width.toNat * s.sel.channels ≤ s.width.toNat * 4 := Nat.mul_le_mul_left _ h2
  simp only [State.stride, Machine.stride]; omega

/-- MAX_CHUNK_LEN bounds OUT below 2^33 (R304). -/
theorem State.outLen_lt_of_fits {s : State} (h : s.PayloadFits) : s.outLen < 2 ^ 33 := by
  have := s.params.maxChunkLen.isLt
  simp only [State.PayloadFits] at h
  simp only [State.outLen]; omega

/-- PRED's 128 bits hold every predicted size (R30). -/
theorem predictedSize_lt (f : ColorFormat) (w h : Word) :
    predictedSize f w.toNat h.toNat < 2 ^ 128 := by
  have hw := w.isLt
  have hh := h.isLt
  have hs : w.toNat * f.channels ≤ w.toNat * 4 := Nat.mul_le_mul_left _ f.channels_le
  have hn : framedLen f w.toNat h.toNat ≤ 2 ^ 32 * 2 ^ 35 := by
    apply Nat.mul_le_mul (by omega)
    simp only [stride]; omega
  rw [predictedSize_eq_streamSize]
  simp only [streamSize, fullBlocks]
  omega

end Sys2Proof.Machine
end

