-- ==== Sys2Proof/Laws/State.lean ====
section
/-! SUPPORT. One lemma per field per update of State, so that no later proof unfolds an update. -/

namespace Sys2Proof.Machine

/-! `setStatus` (R27) -/

@[simp] theorem State.setStatus_params (p : Phase) (c : Cause) (s : State) :
    (s.setStatus p c).params = s.params := rfl

@[simp] theorem State.setStatus_sel (p : Phase) (c : Cause) (s : State) :
    (s.setStatus p c).sel = s.sel := rfl

@[simp] theorem State.setStatus_width (p : Phase) (c : Cause) (s : State) :
    (s.setStatus p c).width = s.width := rfl

@[simp] theorem State.setStatus_height (p : Phase) (c : Cause) (s : State) :
    (s.setStatus p c).height = s.height := rfl

@[simp] theorem State.setStatus_pixlen (p : Phase) (c : Cause) (s : State) :
    (s.setStatus p c).pixlen = s.pixlen := rfl

@[simp] theorem State.setStatus_phase (p : Phase) (c : Cause) (s : State) :
    (s.setStatus p c).phase = p := rfl

@[simp] theorem State.setStatus_cause (p : Phase) (c : Cause) (s : State) :
    (s.setStatus p c).cause = c := rfl

@[simp] theorem State.setStatus_sinkcode (p : Phase) (c : Cause) (s : State) :
    (s.setStatus p c).sinkcode = s.sinkcode := rfl

@[simp] theorem State.setStatus_outcnt (p : Phase) (c : Cause) (s : State) :
    (s.setStatus p c).outcnt = s.outcnt := rfl

@[simp] theorem State.setStatus_pred (p : Phase) (c : Cause) (s : State) :
    (s.setStatus p c).pred = s.pred := rfl

@[simp] theorem State.setStatus_crc (p : Phase) (c : Cause) (s : State) :
    (s.setStatus p c).crc = s.crc := rfl

@[simp] theorem State.setStatus_adlerA (p : Phase) (c : Cause) (s : State) :
    (s.setStatus p c).adlerA = s.adlerA := rfl

@[simp] theorem State.setStatus_adlerB (p : Phase) (c : Cause) (s : State) :
    (s.setStatus p c).adlerB = s.adlerB := rfl

@[simp] theorem State.setStatus_fidx (p : Phase) (c : Cause) (s : State) :
    (s.setStatus p c).fidx = s.fidx := rfl

@[simp] theorem State.setStatus_row (p : Phase) (c : Cause) (s : State) :
    (s.setStatus p c).row = s.row := rfl

@[simp] theorem State.setStatus_col (p : Phase) (c : Cause) (s : State) :
    (s.setStatus p c).col = s.col := rfl

@[simp] theorem State.setStatus_blkRem (p : Phase) (c : Cause) (s : State) :
    (s.setStatus p c).blkRem = s.blkRem := rfl

@[simp] theorem State.setStatus_blkIdx (p : Phase) (c : Cause) (s : State) :
    (s.setStatus p c).blkIdx = s.blkIdx := rfl

@[simp] theorem State.setStatus_pixmem (p : Phase) (c : Cause) (s : State) :
    (s.setStatus p c).pixmem = s.pixmem := rfl

@[simp] theorem State.setStatus_sink (p : Phase) (c : Cause) (s : State) :
    (s.setStatus p c).sink = s.sink := rfl

@[simp] theorem State.setStatus_answer (p : Phase) (c : Cause) (s : State) :
    (s.setStatus p c).answer = s.answer := rfl

@[simp] theorem State.setStatus_policy (p : Phase) (c : Cause) (s : State) :
    (s.setStatus p c).policy = s.policy := rfl

@[simp] theorem State.setStatus_program (p : Phase) (c : Cause) (s : State) :
    (s.setStatus p c).program = s.program := rfl

@[simp] theorem State.setStatus_reads (p : Phase) (c : Cause) (s : State) :
    (s.setStatus p c).reads = s.reads := rfl

/-! `accept` (R131, R132) -/

@[simp] theorem State.accept_params (s : State) :
    (s.accept).params = s.params := rfl

@[simp] theorem State.accept_sel (s : State) :
    (s.accept).sel = s.sel := rfl

@[simp] theorem State.accept_width (s : State) :
    (s.accept).width = s.width := rfl

@[simp] theorem State.accept_height (s : State) :
    (s.accept).height = s.height := rfl

@[simp] theorem State.accept_pixlen (s : State) :
    (s.accept).pixlen = s.pixlen := rfl

@[simp] theorem State.accept_phase (s : State) :
    (s.accept).phase = s.phase := rfl

@[simp] theorem State.accept_cause (s : State) :
    (s.accept).cause = s.cause := rfl

@[simp] theorem State.accept_sinkcode (s : State) :
    (s.accept).sinkcode = 0 := rfl

@[simp] theorem State.accept_outcnt (s : State) :
    (s.accept).outcnt = 0 := rfl

@[simp] theorem State.accept_pred (s : State) :
    (s.accept).pred = BitVec.ofNat 128 (predictedSize s.sel s.width.toNat s.height.toNat) := rfl

@[simp] theorem State.accept_crc (s : State) :
    (s.accept).crc = s.crc := rfl

@[simp] theorem State.accept_adlerA (s : State) :
    (s.accept).adlerA = s.adlerA := rfl

@[simp] theorem State.accept_adlerB (s : State) :
    (s.accept).adlerB = s.adlerB := rfl

@[simp] theorem State.accept_fidx (s : State) :
    (s.accept).fidx = s.fidx := rfl

@[simp] theorem State.accept_row (s : State) :
    (s.accept).row = s.row := rfl

@[simp] theorem State.accept_col (s : State) :
    (s.accept).col = s.col := rfl

@[simp] theorem State.accept_blkRem (s : State) :
    (s.accept).blkRem = s.blkRem := rfl

@[simp] theorem State.accept_blkIdx (s : State) :
    (s.accept).blkIdx = s.blkIdx := rfl

@[simp] theorem State.accept_pixmem (s : State) :
    (s.accept).pixmem = s.pixmem := rfl

@[simp] theorem State.accept_sink (s : State) :
    (s.accept).sink = s.sink := rfl

@[simp] theorem State.accept_answer (s : State) :
    (s.accept).answer = s.answer := rfl

@[simp] theorem State.accept_policy (s : State) :
    (s.accept).policy = s.policy := rfl

@[simp] theorem State.accept_program (s : State) :
    (s.accept).program = s.program := rfl

@[simp] theorem State.accept_reads (s : State) :
    (s.accept).reads = s.reads := rfl

/-! `startEmission` (R131) -/

@[simp] theorem State.startEmission_params (s : State) :
    (s.startEmission).params = s.params := rfl

@[simp] theorem State.startEmission_sel (s : State) :
    (s.startEmission).sel = s.sel := rfl

@[simp] theorem State.startEmission_width (s : State) :
    (s.startEmission).width = s.width := rfl

@[simp] theorem State.startEmission_height (s : State) :
    (s.startEmission).height = s.height := rfl

@[simp] theorem State.startEmission_pixlen (s : State) :
    (s.startEmission).pixlen = s.pixlen := rfl

@[simp] theorem State.startEmission_phase (s : State) :
    (s.startEmission).phase = .busy := rfl

@[simp] theorem State.startEmission_cause (s : State) :
    (s.startEmission).cause = .none := rfl

@[simp] theorem State.startEmission_sinkcode (s : State) :
    (s.startEmission).sinkcode = s.sinkcode := rfl

@[simp] theorem State.startEmission_outcnt (s : State) :
    (s.startEmission).outcnt = s.outcnt := rfl

@[simp] theorem State.startEmission_pred (s : State) :
    (s.startEmission).pred = s.pred := rfl

@[simp] theorem State.startEmission_crc (s : State) :
    (s.startEmission).crc = 0xFFFFFFFF := rfl

@[simp] theorem State.startEmission_adlerA (s : State) :
    (s.startEmission).adlerA = 1 := rfl

@[simp] theorem State.startEmission_adlerB (s : State) :
    (s.startEmission).adlerB = 0 := rfl

@[simp] theorem State.startEmission_fidx (s : State) :
    (s.startEmission).fidx = 0 := rfl

@[simp] theorem State.startEmission_row (s : State) :
    (s.startEmission).row = 0 := rfl

@[simp] theorem State.startEmission_col (s : State) :
    (s.startEmission).col = 0 := rfl

@[simp] theorem State.startEmission_blkRem (s : State) :
    (s.startEmission).blkRem = 0 := rfl

@[simp] theorem State.startEmission_blkIdx (s : State) :
    (s.startEmission).blkIdx = 0 := rfl

@[simp] theorem State.startEmission_pixmem (s : State) :
    (s.startEmission).pixmem = s.pixmem := rfl

@[simp] theorem State.startEmission_sink (s : State) :
    (s.startEmission).sink = s.sink := rfl

@[simp] theorem State.startEmission_answer (s : State) :
    (s.startEmission).answer = s.answer := rfl

@[simp] theorem State.startEmission_policy (s : State) :
    (s.startEmission).policy = s.policy := rfl

@[simp] theorem State.startEmission_program (s : State) :
    (s.startEmission).program = s.program := rfl

@[simp] theorem State.startEmission_reads (s : State) :
    (s.startEmission).reads = s.reads := rfl

/-! `raiseError` (R301) -/

@[simp] theorem State.raiseError_params (e : Cause) (info : Word) (s : State) :
    (s.raiseError e info).params = s.params := by
  unfold State.raiseError; split <;> rfl

@[simp] theorem State.raiseError_sel (e : Cause) (info : Word) (s : State) :
    (s.raiseError e info).sel = s.sel := by
  unfold State.raiseError; split <;> rfl

@[simp] theorem State.raiseError_width (e : Cause) (info : Word) (s : State) :
    (s.raiseError e info).width = s.width := by
  unfold State.raiseError; split <;> rfl

@[simp] theorem State.raiseError_height (e : Cause) (info : Word) (s : State) :
    (s.raiseError e info).height = s.height := by
  unfold State.raiseError; split <;> rfl

@[simp] theorem State.raiseError_pixlen (e : Cause) (info : Word) (s : State) :
    (s.raiseError e info).pixlen = s.pixlen := by
  unfold State.raiseError; split <;> rfl

@[simp] theorem State.raiseError_phase (e : Cause) (info : Word) (s : State) :
    (s.raiseError e info).phase = .error := by
  unfold State.raiseError; split <;> rfl

@[simp] theorem State.raiseError_cause (e : Cause) (info : Word) (s : State) :
    (s.raiseError e info).cause = e := by
  unfold State.raiseError; split <;> rfl

@[simp] theorem State.raiseError_sinkcode (e : Cause) (info : Word) (s : State) :
    (s.raiseError e info).sinkcode = if e = .sinkFailure then info else s.sinkcode := by
  unfold State.raiseError; split <;> rfl

@[simp] theorem State.raiseError_outcnt (e : Cause) (info : Word) (s : State) :
    (s.raiseError e info).outcnt = s.outcnt := by
  unfold State.raiseError; split <;> rfl

@[simp] theorem State.raiseError_pred (e : Cause) (info : Word) (s : State) :
    (s.raiseError e info).pred = s.pred := by
  unfold State.raiseError; split <;> rfl

@[simp] theorem State.raiseError_crc (e : Cause) (info : Word) (s : State) :
    (s.raiseError e info).crc = s.crc := by
  unfold State.raiseError; split <;> rfl

@[simp] theorem State.raiseError_adlerA (e : Cause) (info : Word) (s : State) :
    (s.raiseError e info).adlerA = s.adlerA := by
  unfold State.raiseError; split <;> rfl

@[simp] theorem State.raiseError_adlerB (e : Cause) (info : Word) (s : State) :
    (s.raiseError e info).adlerB = s.adlerB := by
  unfold State.raiseError; split <;> rfl

@[simp] theorem State.raiseError_fidx (e : Cause) (info : Word) (s : State) :
    (s.raiseError e info).fidx = s.fidx := by
  unfold State.raiseError; split <;> rfl

@[simp] theorem State.raiseError_row (e : Cause) (info : Word) (s : State) :
    (s.raiseError e info).row = s.row := by
  unfold State.raiseError; split <;> rfl

@[simp] theorem State.raiseError_col (e : Cause) (info : Word) (s : State) :
    (s.raiseError e info).col = s.col := by
  unfold State.raiseError; split <;> rfl

@[simp] theorem State.raiseError_blkRem (e : Cause) (info : Word) (s : State) :
    (s.raiseError e info).blkRem = s.blkRem := by
  unfold State.raiseError; split <;> rfl

@[simp] theorem State.raiseError_blkIdx (e : Cause) (info : Word) (s : State) :
    (s.raiseError e info).blkIdx = s.blkIdx := by
  unfold State.raiseError; split <;> rfl

@[simp] theorem State.raiseError_pixmem (e : Cause) (info : Word) (s : State) :
    (s.raiseError e info).pixmem = s.pixmem := by
  unfold State.raiseError; split <;> rfl

@[simp] theorem State.raiseError_sink (e : Cause) (info : Word) (s : State) :
    (s.raiseError e info).sink = s.sink := by
  unfold State.raiseError; split <;> rfl

@[simp] theorem State.raiseError_answer (e : Cause) (info : Word) (s : State) :
    (s.raiseError e info).answer = s.answer := by
  unfold State.raiseError; split <;> rfl

@[simp] theorem State.raiseError_policy (e : Cause) (info : Word) (s : State) :
    (s.raiseError e info).policy = s.policy := by
  unfold State.raiseError; split <;> rfl

@[simp] theorem State.raiseError_program (e : Cause) (info : Word) (s : State) :
    (s.raiseError e info).program = s.program := by
  unfold State.raiseError; split <;> rfl

@[simp] theorem State.raiseError_reads (e : Cause) (info : Word) (s : State) :
    (s.raiseError e info).reads = s.reads := by
  unfold State.raiseError; split <;> rfl

/-! `deliver` (R285) -/

@[simp] theorem State.deliver_params (b : Byte) (s : State) :
    (s.deliver b).params = s.params := by
  simp only [State.deliver]; split <;> rfl

@[simp] theorem State.deliver_sel (b : Byte) (s : State) :
    (s.deliver b).sel = s.sel := by
  simp only [State.deliver]; split <;> rfl

@[simp] theorem State.deliver_width (b : Byte) (s : State) :
    (s.deliver b).width = s.width := by
  simp only [State.deliver]; split <;> rfl

@[simp] theorem State.deliver_height (b : Byte) (s : State) :
    (s.deliver b).height = s.height := by
  simp only [State.deliver]; split <;> rfl

@[simp] theorem State.deliver_pixlen (b : Byte) (s : State) :
    (s.deliver b).pixlen = s.pixlen := by
  simp only [State.deliver]; split <;> rfl

@[simp] theorem State.deliver_phase (b : Byte) (s : State) :
    (s.deliver b).phase = if (s.outcnt + 1).toNat = s.outLen then .done else s.phase := by
  simp only [State.deliver]; split <;> simp_all [State.setStatus, State.outLen, State.streamSize, State.framedLen]

@[simp] theorem State.deliver_cause (b : Byte) (s : State) :
    (s.deliver b).cause = if (s.outcnt + 1).toNat = s.outLen then .none else s.cause := by
  simp only [State.deliver]; split <;> simp_all [State.setStatus, State.outLen, State.streamSize, State.framedLen]

@[simp] theorem State.deliver_sinkcode (b : Byte) (s : State) :
    (s.deliver b).sinkcode = s.sinkcode := by
  simp only [State.deliver]; split <;> rfl

@[simp] theorem State.deliver_outcnt (b : Byte) (s : State) :
    (s.deliver b).outcnt = s.outcnt + 1 := by
  simp only [State.deliver]; split <;> rfl

@[simp] theorem State.deliver_pred (b : Byte) (s : State) :
    (s.deliver b).pred = s.pred := by
  simp only [State.deliver]; split <;> rfl

@[simp] theorem State.deliver_crc (b : Byte) (s : State) :
    (s.deliver b).crc = s.crc := by
  simp only [State.deliver]; split <;> rfl

@[simp] theorem State.deliver_adlerA (b : Byte) (s : State) :
    (s.deliver b).adlerA = s.adlerA := by
  simp only [State.deliver]; split <;> rfl

@[simp] theorem State.deliver_adlerB (b : Byte) (s : State) :
    (s.deliver b).adlerB = s.adlerB := by
  simp only [State.deliver]; split <;> rfl

@[simp] theorem State.deliver_fidx (b : Byte) (s : State) :
    (s.deliver b).fidx = s.fidx := by
  simp only [State.deliver]; split <;> rfl

@[simp] theorem State.deliver_row (b : Byte) (s : State) :
    (s.deliver b).row = s.row := by
  simp only [State.deliver]; split <;> rfl

@[simp] theorem State.deliver_col (b : Byte) (s : State) :
    (s.deliver b).col = s.col := by
  simp only [State.deliver]; split <;> rfl

@[simp] theorem State.deliver_blkRem (b : Byte) (s : State) :
    (s.deliver b).blkRem = s.blkRem := by
  simp only [State.deliver]; split <;> rfl

@[simp] theorem State.deliver_blkIdx (b : Byte) (s : State) :
    (s.deliver b).blkIdx = s.blkIdx := by
  simp only [State.deliver]; split <;> rfl

@[simp] theorem State.deliver_pixmem (b : Byte) (s : State) :
    (s.deliver b).pixmem = s.pixmem := by
  simp only [State.deliver]; split <;> rfl

@[simp] theorem State.deliver_sink (b : Byte) (s : State) :
    (s.deliver b).sink = s.sink ++ [b] := by
  simp only [State.deliver]; split <;> rfl

@[simp] theorem State.deliver_answer (b : Byte) (s : State) :
    (s.deliver b).answer = none := by
  simp only [State.deliver]; split <;> rfl

@[simp] theorem State.deliver_policy (b : Byte) (s : State) :
    (s.deliver b).policy = s.policy := by
  simp only [State.deliver]; split <;> rfl

@[simp] theorem State.deliver_program (b : Byte) (s : State) :
    (s.deliver b).program = s.program := by
  simp only [State.deliver]; split <;> rfl

@[simp] theorem State.deliver_reads (b : Byte) (s : State) :
    (s.deliver b).reads = s.reads := by
  simp only [State.deliver]; split <;> rfl

/-! `framerAdvance` (R184) -/

@[simp] theorem State.framerAdvance_params (s : State) :
    (s.framerAdvance).params = s.params := by
  unfold State.framerAdvance; split <;> simp_all

@[simp] theorem State.framerAdvance_sel (s : State) :
    (s.framerAdvance).sel = s.sel := by
  unfold State.framerAdvance; split <;> simp_all

@[simp] theorem State.framerAdvance_width (s : State) :
    (s.framerAdvance).width = s.width := by
  unfold State.framerAdvance; split <;> simp_all

@[simp] theorem State.framerAdvance_height (s : State) :
    (s.framerAdvance).height = s.height := by
  unfold State.framerAdvance; split <;> simp_all

@[simp] theorem State.framerAdvance_pixlen (s : State) :
    (s.framerAdvance).pixlen = s.pixlen := by
  unfold State.framerAdvance; split <;> simp_all

@[simp] theorem State.framerAdvance_phase (s : State) :
    (s.framerAdvance).phase = s.phase := by
  unfold State.framerAdvance; split <;> simp_all

@[simp] theorem State.framerAdvance_cause (s : State) :
    (s.framerAdvance).cause = s.cause := by
  unfold State.framerAdvance; split <;> simp_all

@[simp] theorem State.framerAdvance_sinkcode (s : State) :
    (s.framerAdvance).sinkcode = s.sinkcode := by
  unfold State.framerAdvance; split <;> simp_all

@[simp] theorem State.framerAdvance_outcnt (s : State) :
    (s.framerAdvance).outcnt = s.outcnt := by
  unfold State.framerAdvance; split <;> simp_all

@[simp] theorem State.framerAdvance_pred (s : State) :
    (s.framerAdvance).pred = s.pred := by
  unfold State.framerAdvance; split <;> simp_all

@[simp] theorem State.framerAdvance_crc (s : State) :
    (s.framerAdvance).crc = s.crc := by
  unfold State.framerAdvance; split <;> simp_all

@[simp] theorem State.framerAdvance_adlerA (s : State) :
    (s.framerAdvance).adlerA = s.adlerA := by
  unfold State.framerAdvance; split <;> simp_all

@[simp] theorem State.framerAdvance_adlerB (s : State) :
    (s.framerAdvance).adlerB = s.adlerB := by
  unfold State.framerAdvance; split <;> simp_all

@[simp] theorem State.framerAdvance_fidx (s : State) :
    (s.framerAdvance).fidx = s.fidx + 1 := by
  unfold State.framerAdvance; split <;> simp_all

@[simp] theorem State.framerAdvance_row (s : State) :
    (s.framerAdvance).row = if s.col.toNat = s.stride then s.row + 1 else s.row := by
  unfold State.framerAdvance; split <;> simp_all

@[simp] theorem State.framerAdvance_col (s : State) :
    (s.framerAdvance).col = if s.col.toNat = s.stride then 0 else s.col + 1 := by
  unfold State.framerAdvance; split <;> simp_all

@[simp] theorem State.framerAdvance_blkRem (s : State) :
    (s.framerAdvance).blkRem = s.blkRem := by
  unfold State.framerAdvance; split <;> simp_all

@[simp] theorem State.framerAdvance_blkIdx (s : State) :
    (s.framerAdvance).blkIdx = s.blkIdx := by
  unfold State.framerAdvance; split <;> simp_all

@[simp] theorem State.framerAdvance_pixmem (s : State) :
    (s.framerAdvance).pixmem = s.pixmem := by
  unfold State.framerAdvance; split <;> simp_all

@[simp] theorem State.framerAdvance_sink (s : State) :
    (s.framerAdvance).sink = s.sink := by
  unfold State.framerAdvance; split <;> simp_all

@[simp] theorem State.framerAdvance_answer (s : State) :
    (s.framerAdvance).answer = s.answer := by
  unfold State.framerAdvance; split <;> simp_all

@[simp] theorem State.framerAdvance_policy (s : State) :
    (s.framerAdvance).policy = s.policy := by
  unfold State.framerAdvance; split <;> simp_all

@[simp] theorem State.framerAdvance_program (s : State) :
    (s.framerAdvance).program = s.program := by
  unfold State.framerAdvance; split <;> simp_all

@[simp] theorem State.framerAdvance_reads (s : State) :
    (s.framerAdvance).reads = s.reads := by
  unfold State.framerAdvance; split <;> simp_all

/-! `adlerAdvance` (R212) -/

@[simp] theorem State.adlerAdvance_params (b : Byte) (s : State) :
    (s.adlerAdvance b).params = s.params := rfl

@[simp] theorem State.adlerAdvance_sel (b : Byte) (s : State) :
    (s.adlerAdvance b).sel = s.sel := rfl

@[simp] theorem State.adlerAdvance_width (b : Byte) (s : State) :
    (s.adlerAdvance b).width = s.width := rfl

@[simp] theorem State.adlerAdvance_height (b : Byte) (s : State) :
    (s.adlerAdvance b).height = s.height := rfl

@[simp] theorem State.adlerAdvance_pixlen (b : Byte) (s : State) :
    (s.adlerAdvance b).pixlen = s.pixlen := rfl

@[simp] theorem State.adlerAdvance_phase (b : Byte) (s : State) :
    (s.adlerAdvance b).phase = s.phase := rfl

@[simp] theorem State.adlerAdvance_cause (b : Byte) (s : State) :
    (s.adlerAdvance b).cause = s.cause := rfl

@[simp] theorem State.adlerAdvance_sinkcode (b : Byte) (s : State) :
    (s.adlerAdvance b).sinkcode = s.sinkcode := rfl

@[simp] theorem State.adlerAdvance_outcnt (b : Byte) (s : State) :
    (s.adlerAdvance b).outcnt = s.outcnt := rfl

@[simp] theorem State.adlerAdvance_pred (b : Byte) (s : State) :
    (s.adlerAdvance b).pred = s.pred := rfl

@[simp] theorem State.adlerAdvance_crc (b : Byte) (s : State) :
    (s.adlerAdvance b).crc = s.crc := rfl

@[simp] theorem State.adlerAdvance_adlerA (b : Byte) (s : State) :
    (s.adlerAdvance b).adlerA = (adlerUpdate (s.adlerA, s.adlerB) b).1 := rfl

@[simp] theorem State.adlerAdvance_adlerB (b : Byte) (s : State) :
    (s.adlerAdvance b).adlerB = (adlerUpdate (s.adlerA, s.adlerB) b).2 := rfl

@[simp] theorem State.adlerAdvance_fidx (b : Byte) (s : State) :
    (s.adlerAdvance b).fidx = s.fidx := rfl

@[simp] theorem State.adlerAdvance_row (b : Byte) (s : State) :
    (s.adlerAdvance b).row = s.row := rfl

@[simp] theorem State.adlerAdvance_col (b : Byte) (s : State) :
    (s.adlerAdvance b).col = s.col := rfl

@[simp] theorem State.adlerAdvance_blkRem (b : Byte) (s : State) :
    (s.adlerAdvance b).blkRem = s.blkRem := rfl

@[simp] theorem State.adlerAdvance_blkIdx (b : Byte) (s : State) :
    (s.adlerAdvance b).blkIdx = s.blkIdx := rfl

@[simp] theorem State.adlerAdvance_pixmem (b : Byte) (s : State) :
    (s.adlerAdvance b).pixmem = s.pixmem := rfl

@[simp] theorem State.adlerAdvance_sink (b : Byte) (s : State) :
    (s.adlerAdvance b).sink = s.sink := rfl

@[simp] theorem State.adlerAdvance_answer (b : Byte) (s : State) :
    (s.adlerAdvance b).answer = s.answer := rfl

@[simp] theorem State.adlerAdvance_policy (b : Byte) (s : State) :
    (s.adlerAdvance b).policy = s.policy := rfl

@[simp] theorem State.adlerAdvance_program (b : Byte) (s : State) :
    (s.adlerAdvance b).program = s.program := rfl

@[simp] theorem State.adlerAdvance_reads (b : Byte) (s : State) :
    (s.adlerAdvance b).reads = s.reads := rfl

/-! `blockAdvance` (R205) -/

@[simp] theorem State.blockAdvance_params (n : Nat) (s : State) :
    (s.blockAdvance n).params = s.params := by
  simp only [State.blockAdvance]; split <;> simp_all

@[simp] theorem State.blockAdvance_sel (n : Nat) (s : State) :
    (s.blockAdvance n).sel = s.sel := by
  simp only [State.blockAdvance]; split <;> simp_all

@[simp] theorem State.blockAdvance_width (n : Nat) (s : State) :
    (s.blockAdvance n).width = s.width := by
  simp only [State.blockAdvance]; split <;> simp_all

@[simp] theorem State.blockAdvance_height (n : Nat) (s : State) :
    (s.blockAdvance n).height = s.height := by
  simp only [State.blockAdvance]; split <;> simp_all

@[simp] theorem State.blockAdvance_pixlen (n : Nat) (s : State) :
    (s.blockAdvance n).pixlen = s.pixlen := by
  simp only [State.blockAdvance]; split <;> simp_all

@[simp] theorem State.blockAdvance_phase (n : Nat) (s : State) :
    (s.blockAdvance n).phase = s.phase := by
  simp only [State.blockAdvance]; split <;> simp_all

@[simp] theorem State.blockAdvance_cause (n : Nat) (s : State) :
    (s.blockAdvance n).cause = s.cause := by
  simp only [State.blockAdvance]; split <;> simp_all

@[simp] theorem State.blockAdvance_sinkcode (n : Nat) (s : State) :
    (s.blockAdvance n).sinkcode = s.sinkcode := by
  simp only [State.blockAdvance]; split <;> simp_all

@[simp] theorem State.blockAdvance_outcnt (n : Nat) (s : State) :
    (s.blockAdvance n).outcnt = s.outcnt := by
  simp only [State.blockAdvance]; split <;> simp_all

@[simp] theorem State.blockAdvance_pred (n : Nat) (s : State) :
    (s.blockAdvance n).pred = s.pred := by
  simp only [State.blockAdvance]; split <;> simp_all

@[simp] theorem State.blockAdvance_crc (n : Nat) (s : State) :
    (s.blockAdvance n).crc = s.crc := by
  simp only [State.blockAdvance]; split <;> simp_all

@[simp] theorem State.blockAdvance_adlerA (n : Nat) (s : State) :
    (s.blockAdvance n).adlerA = s.adlerA := by
  simp only [State.blockAdvance]; split <;> simp_all

@[simp] theorem State.blockAdvance_adlerB (n : Nat) (s : State) :
    (s.blockAdvance n).adlerB = s.adlerB := by
  simp only [State.blockAdvance]; split <;> simp_all

@[simp] theorem State.blockAdvance_fidx (n : Nat) (s : State) :
    (s.blockAdvance n).fidx = s.fidx := by
  simp only [State.blockAdvance]; split <;> simp_all

@[simp] theorem State.blockAdvance_row (n : Nat) (s : State) :
    (s.blockAdvance n).row = s.row := by
  simp only [State.blockAdvance]; split <;> simp_all

@[simp] theorem State.blockAdvance_col (n : Nat) (s : State) :
    (s.blockAdvance n).col = s.col := by
  simp only [State.blockAdvance]; split <;> simp_all

@[simp] theorem State.blockAdvance_blkRem (n : Nat) (s : State) :
    (s.blockAdvance n).blkRem = s.blkRem - 1 := by
  simp only [State.blockAdvance]; split <;> simp_all

@[simp] theorem State.blockAdvance_blkIdx (n : Nat) (s : State) :
    (s.blockAdvance n).blkIdx = if s.blkRem - 1 = 0 ∧ s.blkIdx.toNat < fullBlocks n then s.blkIdx + 1 else s.blkIdx := by
  simp only [State.blockAdvance]; split <;> simp_all

@[simp] theorem State.blockAdvance_pixmem (n : Nat) (s : State) :
    (s.blockAdvance n).pixmem = s.pixmem := by
  simp only [State.blockAdvance]; split <;> simp_all

@[simp] theorem State.blockAdvance_sink (n : Nat) (s : State) :
    (s.blockAdvance n).sink = s.sink := by
  simp only [State.blockAdvance]; split <;> simp_all

@[simp] theorem State.blockAdvance_answer (n : Nat) (s : State) :
    (s.blockAdvance n).answer = s.answer := by
  simp only [State.blockAdvance]; split <;> simp_all

@[simp] theorem State.blockAdvance_policy (n : Nat) (s : State) :
    (s.blockAdvance n).policy = s.policy := by
  simp only [State.blockAdvance]; split <;> simp_all

@[simp] theorem State.blockAdvance_program (n : Nat) (s : State) :
    (s.blockAdvance n).program = s.program := by
  simp only [State.blockAdvance]; split <;> simp_all

@[simp] theorem State.blockAdvance_reads (n : Nat) (s : State) :
    (s.blockAdvance n).reads = s.reads := by
  simp only [State.blockAdvance]; split <;> simp_all

/-! `loadBlock` (R205) -/

@[simp] theorem State.loadBlock_params (i : Nat) (len : BitVec 16) (s : State) :
    (s.loadBlock i len).params = s.params := by
  unfold State.loadBlock; split <;> rfl

@[simp] theorem State.loadBlock_sel (i : Nat) (len : BitVec 16) (s : State) :
    (s.loadBlock i len).sel = s.sel := by
  unfold State.loadBlock; split <;> rfl

@[simp] theorem State.loadBlock_width (i : Nat) (len : BitVec 16) (s : State) :
    (s.loadBlock i len).width = s.width := by
  unfold State.loadBlock; split <;> rfl

@[simp] theorem State.loadBlock_height (i : Nat) (len : BitVec 16) (s : State) :
    (s.loadBlock i len).height = s.height := by
  unfold State.loadBlock; split <;> rfl

@[simp] theorem State.loadBlock_pixlen (i : Nat) (len : BitVec 16) (s : State) :
    (s.loadBlock i len).pixlen = s.pixlen := by
  unfold State.loadBlock; split <;> rfl

@[simp] theorem State.loadBlock_phase (i : Nat) (len : BitVec 16) (s : State) :
    (s.loadBlock i len).phase = s.phase := by
  unfold State.loadBlock; split <;> rfl

@[simp] theorem State.loadBlock_cause (i : Nat) (len : BitVec 16) (s : State) :
    (s.loadBlock i len).cause = s.cause := by
  unfold State.loadBlock; split <;> rfl

@[simp] theorem State.loadBlock_sinkcode (i : Nat) (len : BitVec 16) (s : State) :
    (s.loadBlock i len).sinkcode = s.sinkcode := by
  unfold State.loadBlock; split <;> rfl

@[simp] theorem State.loadBlock_outcnt (i : Nat) (len : BitVec 16) (s : State) :
    (s.loadBlock i len).outcnt = s.outcnt := by
  unfold State.loadBlock; split <;> rfl

@[simp] theorem State.loadBlock_pred (i : Nat) (len : BitVec 16) (s : State) :
    (s.loadBlock i len).pred = s.pred := by
  unfold State.loadBlock; split <;> rfl

@[simp] theorem State.loadBlock_crc (i : Nat) (len : BitVec 16) (s : State) :
    (s.loadBlock i len).crc = s.crc := by
  unfold State.loadBlock; split <;> rfl

@[simp] theorem State.loadBlock_adlerA (i : Nat) (len : BitVec 16) (s : State) :
    (s.loadBlock i len).adlerA = s.adlerA := by
  unfold State.loadBlock; split <;> rfl

@[simp] theorem State.loadBlock_adlerB (i : Nat) (len : BitVec 16) (s : State) :
    (s.loadBlock i len).adlerB = s.adlerB := by
  unfold State.loadBlock; split <;> rfl

@[simp] theorem State.loadBlock_fidx (i : Nat) (len : BitVec 16) (s : State) :
    (s.loadBlock i len).fidx = s.fidx := by
  unfold State.loadBlock; split <;> rfl

@[simp] theorem State.loadBlock_row (i : Nat) (len : BitVec 16) (s : State) :
    (s.loadBlock i len).row = s.row := by
  unfold State.loadBlock; split <;> rfl

@[simp] theorem State.loadBlock_col (i : Nat) (len : BitVec 16) (s : State) :
    (s.loadBlock i len).col = s.col := by
  unfold State.loadBlock; split <;> rfl

@[simp] theorem State.loadBlock_blkRem (i : Nat) (len : BitVec 16) (s : State) :
    (s.loadBlock i len).blkRem = if i = 4 then len else s.blkRem := by
  unfold State.loadBlock; split <;> rfl

@[simp] theorem State.loadBlock_blkIdx (i : Nat) (len : BitVec 16) (s : State) :
    (s.loadBlock i len).blkIdx = s.blkIdx := by
  unfold State.loadBlock; split <;> rfl

@[simp] theorem State.loadBlock_pixmem (i : Nat) (len : BitVec 16) (s : State) :
    (s.loadBlock i len).pixmem = s.pixmem := by
  unfold State.loadBlock; split <;> rfl

@[simp] theorem State.loadBlock_sink (i : Nat) (len : BitVec 16) (s : State) :
    (s.loadBlock i len).sink = s.sink := by
  unfold State.loadBlock; split <;> rfl

@[simp] theorem State.loadBlock_answer (i : Nat) (len : BitVec 16) (s : State) :
    (s.loadBlock i len).answer = s.answer := by
  unfold State.loadBlock; split <;> rfl

@[simp] theorem State.loadBlock_policy (i : Nat) (len : BitVec 16) (s : State) :
    (s.loadBlock i len).policy = s.policy := by
  unfold State.loadBlock; split <;> rfl

@[simp] theorem State.loadBlock_program (i : Nat) (len : BitVec 16) (s : State) :
    (s.loadBlock i len).program = s.program := by
  unfold State.loadBlock; split <;> rfl

@[simp] theorem State.loadBlock_reads (i : Nat) (len : BitVec 16) (s : State) :
    (s.loadBlock i len).reads = s.reads := by
  unfold State.loadBlock; split <;> rfl

/-! `crcAdvance` (R242) -/

theorem State.crcAdvance_eq (b : Byte) (s : State) :
    s.crcAdvance b = { s with crc := crcUpdate s.crc b } := by delta State.crcAdvance; rfl

@[simp] theorem State.crcAdvance_params (b : Byte) (s : State) :
    (s.crcAdvance b).params = s.params := by rfl

@[simp] theorem State.crcAdvance_sel (b : Byte) (s : State) :
    (s.crcAdvance b).sel = s.sel := by rfl

@[simp] theorem State.crcAdvance_width (b : Byte) (s : State) :
    (s.crcAdvance b).width = s.width := by rfl

@[simp] theorem State.crcAdvance_height (b : Byte) (s : State) :
    (s.crcAdvance b).height = s.height := by rfl

@[simp] theorem State.crcAdvance_pixlen (b : Byte) (s : State) :
    (s.crcAdvance b).pixlen = s.pixlen := by rfl

@[simp] theorem State.crcAdvance_phase (b : Byte) (s : State) :
    (s.crcAdvance b).phase = s.phase := by rfl

@[simp] theorem State.crcAdvance_cause (b : Byte) (s : State) :
    (s.crcAdvance b).cause = s.cause := by rfl

@[simp] theorem State.crcAdvance_sinkcode (b : Byte) (s : State) :
    (s.crcAdvance b).sinkcode = s.sinkcode := by rfl

@[simp] theorem State.crcAdvance_outcnt (b : Byte) (s : State) :
    (s.crcAdvance b).outcnt = s.outcnt := by rfl

@[simp] theorem State.crcAdvance_pred (b : Byte) (s : State) :
    (s.crcAdvance b).pred = s.pred := by rfl

@[simp] theorem State.crcAdvance_crc (b : Byte) (s : State) :
    (s.crcAdvance b).crc = crcUpdate s.crc b := by rfl

@[simp] theorem State.crcAdvance_adlerA (b : Byte) (s : State) :
    (s.crcAdvance b).adlerA = s.adlerA := by rfl

@[simp] theorem State.crcAdvance_adlerB (b : Byte) (s : State) :
    (s.crcAdvance b).adlerB = s.adlerB := by rfl

@[simp] theorem State.crcAdvance_fidx (b : Byte) (s : State) :
    (s.crcAdvance b).fidx = s.fidx := by rfl

@[simp] theorem State.crcAdvance_row (b : Byte) (s : State) :
    (s.crcAdvance b).row = s.row := by rfl

@[simp] theorem State.crcAdvance_col (b : Byte) (s : State) :
    (s.crcAdvance b).col = s.col := by rfl

@[simp] theorem State.crcAdvance_blkRem (b : Byte) (s : State) :
    (s.crcAdvance b).blkRem = s.blkRem := by rfl

@[simp] theorem State.crcAdvance_blkIdx (b : Byte) (s : State) :
    (s.crcAdvance b).blkIdx = s.blkIdx := by rfl

@[simp] theorem State.crcAdvance_pixmem (b : Byte) (s : State) :
    (s.crcAdvance b).pixmem = s.pixmem := by rfl

@[simp] theorem State.crcAdvance_sink (b : Byte) (s : State) :
    (s.crcAdvance b).sink = s.sink := by rfl

@[simp] theorem State.crcAdvance_answer (b : Byte) (s : State) :
    (s.crcAdvance b).answer = s.answer := by rfl

@[simp] theorem State.crcAdvance_policy (b : Byte) (s : State) :
    (s.crcAdvance b).policy = s.policy := by rfl

@[simp] theorem State.crcAdvance_program (b : Byte) (s : State) :
    (s.crcAdvance b).program = s.program := by rfl

@[simp] theorem State.crcAdvance_reads (b : Byte) (s : State) :
    (s.crcAdvance b).reads = s.reads := by rfl

/-! `crcType` (R247) -/

@[simp] theorem State.crcType_params (i : Nat) (b : Byte) (s : State) :
    (s.crcType i b).params = s.params := by
  unfold State.crcType; split <;> rfl

@[simp] theorem State.crcType_sel (i : Nat) (b : Byte) (s : State) :
    (s.crcType i b).sel = s.sel := by
  unfold State.crcType; split <;> rfl

@[simp] theorem State.crcType_width (i : Nat) (b : Byte) (s : State) :
    (s.crcType i b).width = s.width := by
  unfold State.crcType; split <;> rfl

@[simp] theorem State.crcType_height (i : Nat) (b : Byte) (s : State) :
    (s.crcType i b).height = s.height := by
  unfold State.crcType; split <;> rfl

@[simp] theorem State.crcType_pixlen (i : Nat) (b : Byte) (s : State) :
    (s.crcType i b).pixlen = s.pixlen := by
  unfold State.crcType; split <;> rfl

@[simp] theorem State.crcType_phase (i : Nat) (b : Byte) (s : State) :
    (s.crcType i b).phase = s.phase := by
  unfold State.crcType; split <;> rfl

@[simp] theorem State.crcType_cause (i : Nat) (b : Byte) (s : State) :
    (s.crcType i b).cause = s.cause := by
  unfold State.crcType; split <;> rfl

@[simp] theorem State.crcType_sinkcode (i : Nat) (b : Byte) (s : State) :
    (s.crcType i b).sinkcode = s.sinkcode := by
  unfold State.crcType; split <;> rfl

@[simp] theorem State.crcType_outcnt (i : Nat) (b : Byte) (s : State) :
    (s.crcType i b).outcnt = s.outcnt := by
  unfold State.crcType; split <;> rfl

@[simp] theorem State.crcType_pred (i : Nat) (b : Byte) (s : State) :
    (s.crcType i b).pred = s.pred := by
  unfold State.crcType; split <;> rfl

@[simp] theorem State.crcType_crc (i : Nat) (b : Byte) (s : State) :
    (s.crcType i b).crc = if i = 0 then crcUpdate 0xFFFFFFFF b else crcUpdate s.crc b := by
  unfold State.crcType; split <;> rfl

@[simp] theorem State.crcType_adlerA (i : Nat) (b : Byte) (s : State) :
    (s.crcType i b).adlerA = s.adlerA := by
  unfold State.crcType; split <;> rfl

@[simp] theorem State.crcType_adlerB (i : Nat) (b : Byte) (s : State) :
    (s.crcType i b).adlerB = s.adlerB := by
  unfold State.crcType; split <;> rfl

@[simp] theorem State.crcType_fidx (i : Nat) (b : Byte) (s : State) :
    (s.crcType i b).fidx = s.fidx := by
  unfold State.crcType; split <;> rfl

@[simp] theorem State.crcType_row (i : Nat) (b : Byte) (s : State) :
    (s.crcType i b).row = s.row := by
  unfold State.crcType; split <;> rfl

@[simp] theorem State.crcType_col (i : Nat) (b : Byte) (s : State) :
    (s.crcType i b).col = s.col := by
  unfold State.crcType; split <;> rfl

@[simp] theorem State.crcType_blkRem (i : Nat) (b : Byte) (s : State) :
    (s.crcType i b).blkRem = s.blkRem := by
  unfold State.crcType; split <;> rfl

@[simp] theorem State.crcType_blkIdx (i : Nat) (b : Byte) (s : State) :
    (s.crcType i b).blkIdx = s.blkIdx := by
  unfold State.crcType; split <;> rfl

@[simp] theorem State.crcType_pixmem (i : Nat) (b : Byte) (s : State) :
    (s.crcType i b).pixmem = s.pixmem := by
  unfold State.crcType; split <;> rfl

@[simp] theorem State.crcType_sink (i : Nat) (b : Byte) (s : State) :
    (s.crcType i b).sink = s.sink := by
  unfold State.crcType; split <;> rfl

@[simp] theorem State.crcType_answer (i : Nat) (b : Byte) (s : State) :
    (s.crcType i b).answer = s.answer := by
  unfold State.crcType; split <;> rfl

@[simp] theorem State.crcType_policy (i : Nat) (b : Byte) (s : State) :
    (s.crcType i b).policy = s.policy := by
  unfold State.crcType; split <;> rfl

@[simp] theorem State.crcType_program (i : Nat) (b : Byte) (s : State) :
    (s.crcType i b).program = s.program := by
  unfold State.crcType; split <;> rfl

@[simp] theorem State.crcType_reads (i : Nat) (b : Byte) (s : State) :
    (s.crcType i b).reads = s.reads := by
  unfold State.crcType; split <;> rfl

/-! `selectFormat` (R135, R136) -/

@[simp] theorem State.selectFormat_params (f : ColorFormat) (s : State) :
    (s.selectFormat f).params = s.params := by
  unfold State.selectFormat; split <;> rfl

@[simp] theorem State.selectFormat_sel (f : ColorFormat) (s : State) :
    (s.selectFormat f).sel = if s.phase = .busy then s.sel else f := by
  unfold State.selectFormat; split <;> rfl

@[simp] theorem State.selectFormat_width (f : ColorFormat) (s : State) :
    (s.selectFormat f).width = s.width := by
  unfold State.selectFormat; split <;> rfl

@[simp] theorem State.selectFormat_height (f : ColorFormat) (s : State) :
    (s.selectFormat f).height = s.height := by
  unfold State.selectFormat; split <;> rfl

@[simp] theorem State.selectFormat_pixlen (f : ColorFormat) (s : State) :
    (s.selectFormat f).pixlen = s.pixlen := by
  unfold State.selectFormat; split <;> rfl

@[simp] theorem State.selectFormat_phase (f : ColorFormat) (s : State) :
    (s.selectFormat f).phase = s.phase := by
  unfold State.selectFormat; split <;> rfl

@[simp] theorem State.selectFormat_cause (f : ColorFormat) (s : State) :
    (s.selectFormat f).cause = s.cause := by
  unfold State.selectFormat; split <;> rfl

@[simp] theorem State.selectFormat_sinkcode (f : ColorFormat) (s : State) :
    (s.selectFormat f).sinkcode = s.sinkcode := by
  unfold State.selectFormat; split <;> rfl

@[simp] theorem State.selectFormat_outcnt (f : ColorFormat) (s : State) :
    (s.selectFormat f).outcnt = s.outcnt := by
  unfold State.selectFormat; split <;> rfl

@[simp] theorem State.selectFormat_pred (f : ColorFormat) (s : State) :
    (s.selectFormat f).pred = s.pred := by
  unfold State.selectFormat; split <;> rfl

@[simp] theorem State.selectFormat_crc (f : ColorFormat) (s : State) :
    (s.selectFormat f).crc = s.crc := by
  unfold State.selectFormat; split <;> rfl

@[simp] theorem State.selectFormat_adlerA (f : ColorFormat) (s : State) :
    (s.selectFormat f).adlerA = s.adlerA := by
  unfold State.selectFormat; split <;> rfl

@[simp] theorem State.selectFormat_adlerB (f : ColorFormat) (s : State) :
    (s.selectFormat f).adlerB = s.adlerB := by
  unfold State.selectFormat; split <;> rfl

@[simp] theorem State.selectFormat_fidx (f : ColorFormat) (s : State) :
    (s.selectFormat f).fidx = s.fidx := by
  unfold State.selectFormat; split <;> rfl

@[simp] theorem State.selectFormat_row (f : ColorFormat) (s : State) :
    (s.selectFormat f).row = s.row := by
  unfold State.selectFormat; split <;> rfl

@[simp] theorem State.selectFormat_col (f : ColorFormat) (s : State) :
    (s.selectFormat f).col = s.col := by
  unfold State.selectFormat; split <;> rfl

@[simp] theorem State.selectFormat_blkRem (f : ColorFormat) (s : State) :
    (s.selectFormat f).blkRem = s.blkRem := by
  unfold State.selectFormat; split <;> rfl

@[simp] theorem State.selectFormat_blkIdx (f : ColorFormat) (s : State) :
    (s.selectFormat f).blkIdx = s.blkIdx := by
  unfold State.selectFormat; split <;> rfl

@[simp] theorem State.selectFormat_pixmem (f : ColorFormat) (s : State) :
    (s.selectFormat f).pixmem = s.pixmem := by
  unfold State.selectFormat; split <;> rfl

@[simp] theorem State.selectFormat_sink (f : ColorFormat) (s : State) :
    (s.selectFormat f).sink = s.sink := by
  unfold State.selectFormat; split <;> rfl

@[simp] theorem State.selectFormat_answer (f : ColorFormat) (s : State) :
    (s.selectFormat f).answer = s.answer := by
  unfold State.selectFormat; split <;> rfl

@[simp] theorem State.selectFormat_policy (f : ColorFormat) (s : State) :
    (s.selectFormat f).policy = s.policy := by
  unfold State.selectFormat; split <;> rfl

@[simp] theorem State.selectFormat_program (f : ColorFormat) (s : State) :
    (s.selectFormat f).program = s.program := by
  unfold State.selectFormat; split <;> rfl

@[simp] theorem State.selectFormat_reads (f : ColorFormat) (s : State) :
    (s.selectFormat f).reads = s.reads := by
  unfold State.selectFormat; split <;> rfl

/-! `resetCore` (R340, R341) -/

@[simp] theorem State.resetCore_params (s : State) :
    (s.resetCore).params = s.params := rfl

@[simp] theorem State.resetCore_sel (s : State) :
    (s.resetCore).sel = State.reset.sel := rfl

@[simp] theorem State.resetCore_width (s : State) :
    (s.resetCore).width = State.reset.width := rfl

@[simp] theorem State.resetCore_height (s : State) :
    (s.resetCore).height = State.reset.height := rfl

@[simp] theorem State.resetCore_pixlen (s : State) :
    (s.resetCore).pixlen = State.reset.pixlen := rfl

@[simp] theorem State.resetCore_phase (s : State) :
    (s.resetCore).phase = State.reset.phase := rfl

@[simp] theorem State.resetCore_cause (s : State) :
    (s.resetCore).cause = State.reset.cause := rfl

@[simp] theorem State.resetCore_sinkcode (s : State) :
    (s.resetCore).sinkcode = State.reset.sinkcode := rfl

@[simp] theorem State.resetCore_outcnt (s : State) :
    (s.resetCore).outcnt = State.reset.outcnt := rfl

@[simp] theorem State.resetCore_pred (s : State) :
    (s.resetCore).pred = State.reset.pred := rfl

@[simp] theorem State.resetCore_crc (s : State) :
    (s.resetCore).crc = State.reset.crc := rfl

@[simp] theorem State.resetCore_adlerA (s : State) :
    (s.resetCore).adlerA = State.reset.adlerA := rfl

@[simp] theorem State.resetCore_adlerB (s : State) :
    (s.resetCore).adlerB = State.reset.adlerB := rfl

@[simp] theorem State.resetCore_fidx (s : State) :
    (s.resetCore).fidx = State.reset.fidx := rfl

@[simp] theorem State.resetCore_row (s : State) :
    (s.resetCore).row = State.reset.row := rfl

@[simp] theorem State.resetCore_col (s : State) :
    (s.resetCore).col = State.reset.col := rfl

@[simp] theorem State.resetCore_blkRem (s : State) :
    (s.resetCore).blkRem = State.reset.blkRem := rfl

@[simp] theorem State.resetCore_blkIdx (s : State) :
    (s.resetCore).blkIdx = State.reset.blkIdx := rfl

@[simp] theorem State.resetCore_pixmem (s : State) :
    (s.resetCore).pixmem = s.pixmem := rfl

@[simp] theorem State.resetCore_sink (s : State) :
    (s.resetCore).sink = s.sink := rfl

@[simp] theorem State.resetCore_answer (s : State) :
    (s.resetCore).answer = State.reset.answer := rfl

@[simp] theorem State.resetCore_policy (s : State) :
    (s.resetCore).policy = s.policy := rfl

@[simp] theorem State.resetCore_program (s : State) :
    (s.resetCore).program = s.program := rfl

@[simp] theorem State.resetCore_reads (s : State) :
    (s.resetCore).reads = s.reads := rfl

end Sys2Proof.Machine
end

