-- ==== Sys2Proof/Laws/Ops.lean ====
section
/-! SUPPORT. What the shared operations can do, said once. -/

namespace Sys2Proof.Machine

/-- With no answer on the handshake the core waits (R65). -/
theorem emit_of_none {b : Byte} {adv : State → State} {s : State} (h : s.answer = none) :
    emit b adv s = .next s := by
  simp [emit, h]

/-- An accepted byte: the units advance and the byte is delivered (R285). -/
theorem emit_of_accept {b : Byte} {adv : State → State} {s : State} (h : s.answer = some .accept) :
    emit b adv s = .next ((adv s).deliver b) := by
  simp [emit, h]

/-- A failed byte: SINK_FAILURE, and nothing advances (R287). -/
theorem emit_of_fail {b : Byte} {adv : State → State} {s : State} {code : Word}
    (h : s.answer = some (.fail code)) :
    emit b adv s = .next
      { s with answer := none, sinkcode := code, phase := .error, cause := .sinkFailure } := by
  simp [emit, h, State.raiseError, State.setStatus]

/-- `emit` always has a next state. -/
theorem emit_next (b : Byte) (adv : State → State) (s : State) : ∃ t, emit b adv s = .next t := by
  unfold emit; split <;> exact ⟨_, rfl⟩

/-- All that `emit` can answer. -/
theorem emit_cases {b : Byte} {adv : State → State} {s t : State} (h : emit b adv s = .next t) :
    (s.answer = none ∧ t = s)
    ∨ (s.answer = some .accept ∧ t = (adv s).deliver b)
    ∨ (∃ code, s.answer = some (.fail code)
        ∧ t = { s with answer := none, sinkcode := code, phase := .error, cause := .sinkFailure }) := by
  match ha : s.answer with
  | none => rw [emit_of_none ha] at h; cases h; exact .inl ⟨rfl, rfl⟩
  | some .accept => rw [emit_of_accept ha] at h; cases h; exact .inr (.inl ⟨rfl, rfl⟩)
  | some (.fail code) => rw [emit_of_fail ha] at h; cases h; exact .inr (.inr ⟨code, rfl, rfl⟩)

/-- A chunk byte is emitted, and what its unit changes is the CRC register alone (R246 to R249). -/
theorem emitField_cases (tag : List Byte) (len : Nat) (payload : Nat → Byte) (f : ChunkField)
    (s : State) :
    ∃ b adv, emitField tag len payload f s = emit b adv s ∧ ∃ c, adv s = { s with crc := c } := by
  cases f with
  | length i => exact ⟨_, _, by unfold emitField; rfl, s.crc, rfl⟩
  | type i =>
    refine ⟨_, _, by unfold emitField; rfl, ?_⟩
    simp only [State.crcType, State.crcAdvance_eq]
    split
    · exact ⟨_, rfl⟩
    · exact ⟨_, rfl⟩
  | payload i => exact ⟨_, _, by unfold emitField; rfl, _, State.crcAdvance_eq _ _⟩
  | crc i => exact ⟨_, _, by unfold emitField; rfl, s.crc, rfl⟩

/-- A block header byte is emitted, and its unit changes the CRC and block registers alone. -/
theorem emitBlockHeader_cases (final : Bool) (len : BitVec 16) (i : Nat) (s : State) :
    ∃ b adv, emitBlockHeader final len i s = emit b adv s
      ∧ ∃ c r, adv s = { s with crc := c, blkRem := r } := by
  unfold emitBlockHeader
  refine ⟨_, _, rfl, ?_⟩
  simp only [State.loadBlock, State.crcAdvance_eq]
  split
  · exact ⟨_, _, rfl⟩
  · exact ⟨_, s.blkRem, rfl⟩

/-- What a payload byte's units change (R207): the eight internal registers and nothing else. -/
theorem State.dataAdvance_eq (b : Byte) (s : State) :
    s.dataAdvance b = { s with
      crc := crcUpdate s.crc b
      adlerA := (adlerUpdate (s.adlerA, s.adlerB) b).1
      adlerB := (adlerUpdate (s.adlerA, s.adlerB) b).2
      fidx := s.fidx + 1
      row := if s.col.toNat = s.stride then s.row + 1 else s.row
      col := if s.col.toNat = s.stride then 0 else s.col + 1
      blkRem := s.blkRem - 1
      blkIdx := if s.blkRem - 1 = 0 ∧ s.blkIdx.toNat < fullBlocks s.framedLen then s.blkIdx + 1
        else s.blkIdx } := by
  delta State.dataAdvance State.crcAdvance
  simp only [State.blockAdvance_params, State.blockAdvance_sel, State.blockAdvance_width,
    State.blockAdvance_height, State.blockAdvance_pixlen, State.blockAdvance_phase,
    State.blockAdvance_cause, State.blockAdvance_sinkcode, State.blockAdvance_outcnt,
    State.blockAdvance_pred, State.blockAdvance_crc, State.blockAdvance_adlerA,
    State.blockAdvance_adlerB, State.blockAdvance_fidx, State.blockAdvance_row,
    State.blockAdvance_col, State.blockAdvance_blkRem, State.blockAdvance_blkIdx,
    State.blockAdvance_pixmem, State.blockAdvance_sink, State.blockAdvance_answer,
    State.blockAdvance_policy, State.blockAdvance_program, State.blockAdvance_reads]
  simp

/-- The SINK ACCEPT step, written out (R285, R286). -/
theorem State.deliver_eq (b : Byte) (s : State) : s.deliver b = { s with
    sink := s.sink ++ [b]
    outcnt := s.outcnt + 1
    answer := none
    phase := if (s.outcnt + 1).toNat = s.outLen then .done else s.phase
    cause := if (s.outcnt + 1).toNat = s.outLen then .none else s.cause } := by
  have h : ({ s with
      sink := s.sink ++ [b]
      outcnt := s.outcnt + 1
      answer := none } : State).outLen = s.outLen := rfl
  unfold State.deliver
  simp only [h]
  split <;> rfl

/-- A configuration write while BUSY is ignored (R136). -/
theorem State.writeReg_of_busy {s : State} (h : s.phase = .busy) (r : Reg) (v : Word) :
    s.writeReg r v = s := by
  simp [State.writeReg, h]

/-- All that a register write can change: one of WIDTH, HEIGHT, PIXLEN (R135). -/
theorem State.writeReg_cases (s : State) (r : Reg) (v : Word) :
    ∃ w h p, s.writeReg r v = { s with width := w, height := h, pixlen := p } := by
  unfold State.writeReg
  split
  · exact ⟨_, _, _, rfl⟩
  · cases r <;> exact ⟨_, _, _, rfl⟩

end Sys2Proof.Machine
end

