-- ==== Sys2Proof/Laws/Slots.lean ====
section
/-! SUPPORT. Which operation owns which offset of OUT (R281) and of the StoredStream (R215). -/

namespace Sys2Proof.Machine

/-! ## Chunk fields (R97) -/

theorem chunkField_length {len j : Nat} (h : j < 4) : chunkField len j = .length j := by
  simp [chunkField, h]

theorem chunkField_type {len i : Nat} (h : i < 4) : chunkField len (4 + i) = .type i := by
  simp [chunkField, show ¬ 4 + i < 4 by omega, show 4 + i < 8 by omega]

theorem chunkField_payload {len i : Nat} (h : i < len) : chunkField len (8 + i) = .payload i := by
  simp [chunkField, show ¬ 8 + i < 4 by omega, show ¬ 8 + i < 8 by omega, h]

theorem chunkField_crc (len i : Nat) : chunkField len (8 + len + i) = .crc i := by
  simp [chunkField, show ¬ 8 + len + i < 4 by omega, show ¬ 8 + len + i < 8 by omega,
    show 8 + len + i - 8 - len = i by omega]

/-- Every offset of a chunk stands in one of its four fields. -/
theorem chunk_offset_cases {len j : Nat} (h : j < 12 + len) :
    j < 4 ∨ (∃ i, i < 4 ∧ j = 4 + i) ∨ (∃ i, i < len ∧ j = 8 + i)
      ∨ (∃ i, i < 4 ∧ j = 8 + len + i) := by
  by_cases h1 : j < 4
  · exact .inl h1
  · by_cases h2 : j < 8
    · exact .inr (.inl ⟨j - 4, by omega, by omega⟩)
    · by_cases h3 : j < 8 + len
      · exact .inr (.inr (.inl ⟨j - 8, by omega, by omega⟩))
      · exact .inr (.inr (.inr ⟨j - 8 - len, by omega, by omega⟩))

/-! ## OUT (R281) -/

theorem slotAt_signature {order : ChunkOrder} {n k : Nat} (h : k < 8) :
    slotAt order n k = .signature k := by
  simp [slotAt, h]

theorem slotAt_ihdr {order : ChunkOrder} {n j : Nat} (h : j < 25) :
    slotAt order n (8 + j) = .chunk .ihdr (chunkField 13 j) := by
  simp [slotAt, show ¬ 8 + j < 8 by omega, show 8 + j < 33 by omega]

theorem slotAt_idat {order : ChunkOrder} {n j : Nat} (h : j < 12 + streamSize n) :
    slotAt order n (idatStart order + j) = idatSlot n j := by
  have h1 : 33 ≤ idatStart order := by cases order <;> simp [idatStart]
  simp [slotAt, show ¬ idatStart order + j < 8 by omega, show ¬ idatStart order + j < 33 by omega, h]

theorem slotAt_srgb {order : ChunkOrder} {n j : Nat} (h : j < 13) :
    slotAt order n (srgbStart (streamSize n) order + j) = .chunk .srgb (chunkField 1 j) := by
  have ⟨h1, h2⟩ : 33 ≤ srgbStart (streamSize n) order
      ∧ ¬ (idatStart order ≤ srgbStart (streamSize n) order + j
        ∧ srgbStart (streamSize n) order + j < idatStart order + (12 + streamSize n)) := by
    cases order <;> simp only [srgbStart, idatStart] <;> omega
  simp only [slotAt, if_neg h2]
  rw [if_neg (by omega), if_neg (by omega), if_pos (by omega), Nat.add_sub_cancel_left]

theorem slotAt_iend {order : ChunkOrder} {n j : Nat} (h : j < 12) :
    slotAt order n (58 + streamSize n + j) = .chunk .iend (chunkField 0 j) := by
  have ⟨h1, h2⟩ : ¬ (idatStart order ≤ 58 + streamSize n + j
        ∧ 58 + streamSize n + j < idatStart order + (12 + streamSize n))
      ∧ ¬ (srgbStart (streamSize n) order ≤ 58 + streamSize n + j
        ∧ 58 + streamSize n + j < srgbStart (streamSize n) order + 13) := by
    cases order <;> simp only [srgbStart, idatStart] <;> omega
  simp only [slotAt, if_neg h1, if_neg h2]
  rw [if_neg (by omega), if_neg (by omega), if_pos (by omega), Nat.add_sub_cancel_left]

theorem slotAt_past {order : ChunkOrder} {n k : Nat} (h : 70 + streamSize n ≤ k) :
    slotAt order n k = .nothing := by
  have ⟨h1, h2⟩ : ¬ (idatStart order ≤ k ∧ k < idatStart order + (12 + streamSize n))
      ∧ ¬ (srgbStart (streamSize n) order ≤ k ∧ k < srgbStart (streamSize n) order + 13) := by
    cases order <;> simp only [srgbStart, idatStart] <;> omega
  simp only [slotAt, if_neg h1, if_neg h2]
  rw [if_neg (by omega), if_neg (by omega), if_neg (by omega)]

/-- Every offset of OUT stands in the signature or in one of the four chunks. -/
theorem out_offset_cases (order : ChunkOrder) {n k : Nat} (h : k < 70 + streamSize n) :
    k < 8 ∨ (∃ j, j < 25 ∧ k = 8 + j)
      ∨ (∃ j, j < 12 + streamSize n ∧ k = idatStart order + j)
      ∨ (∃ j, j < 13 ∧ k = srgbStart (streamSize n) order + j)
      ∨ (∃ j, j < 12 ∧ k = 58 + streamSize n + j) := by
  by_cases h1 : k < 8
  · exact .inl h1
  by_cases h2 : k < 33
  · exact .inr (.inl ⟨k - 8, by omega, by omega⟩)
  by_cases h5 : 58 + streamSize n ≤ k
  · exact .inr (.inr (.inr (.inr ⟨k - (58 + streamSize n), by omega, by omega⟩)))
  cases order with
  | idatFirst =>
    by_cases h3 : k < 45 + streamSize n
    · exact .inr (.inr (.inl ⟨k - 33, by omega, by simp only [idatStart]; omega⟩))
    · exact .inr (.inr (.inr (.inl
        ⟨k - (45 + streamSize n), by omega, by simp only [srgbStart]; omega⟩)))
  | srgbFirst =>
    by_cases h3 : k < 46
    · exact .inr (.inr (.inr (.inl ⟨k - 33, by omega, by simp only [srgbStart]; omega⟩)))
    · exact .inr (.inr (.inl ⟨k - 46, by omega, by simp only [idatStart]; omega⟩))

/-! ## The IDAT chunk -/

theorem idatSlot_length {n j : Nat} (h : j < 4) : idatSlot n j = .chunk .idat (.length j) := by
  simp [idatSlot, chunkField_length h]

theorem idatSlot_type {n i : Nat} (h : i < 4) : idatSlot n (4 + i) = .chunk .idat (.type i) := by
  simp [idatSlot, chunkField_type h]

theorem idatSlot_payload {n o : Nat} (h : o < streamSize n) :
    idatSlot n (8 + o) = .stream (streamSlot n o) := by
  simp [idatSlot, chunkField_payload h]

theorem idatSlot_crc (n i : Nat) :
    idatSlot n (8 + streamSize n + i) = .chunk .idat (.crc i) := by
  simp [idatSlot, chunkField_crc]

/-! ## The StoredStream (R215) -/

theorem streamSlot_zhdr {n o : Nat} (h : o < 2) : streamSlot n o = .zhdr o := by
  simp [streamSlot, h]

theorem streamSlot_nonfinal {n b i : Nat} (hb : b < fullBlocks n) (hi : i < 5) :
    streamSlot n (2 + 65540 * b + i) = .nonfinal b i := by
  have h1 : (2 + 65540 * b + i - 2) / 65540 = b := by omega
  have h2 : (2 + 65540 * b + i - 2) % 65540 = i := by omega
  simp only [streamSlot, h1, h2, if_neg (show ¬ 2 + 65540 * b + i < 2 by omega), if_pos hb, if_pos hi]

theorem streamSlot_data_full {n b i : Nat} (hb : b < fullBlocks n) (hi : i < 65535) :
    streamSlot n (7 + 65540 * b + i) = .data b i := by
  have h1 : (7 + 65540 * b + i - 2) / 65540 = b := by omega
  have h2 : (7 + 65540 * b + i - 2) % 65540 = 5 + i := by omega
  simp only [streamSlot, h1, h2, if_neg (show ¬ 7 + 65540 * b + i < 2 by omega), if_pos hb,
    if_neg (show ¬ 5 + i < 5 by omega), Nat.add_sub_cancel_left]

theorem streamSlot_final {n i : Nat} (hi : i < 5) :
    streamSlot n (2 + 65540 * fullBlocks n + i) = .final i := by
  have h1 : ¬ (2 + 65540 * fullBlocks n + i - 2) / 65540 < fullBlocks n := by omega
  have h2 : 2 + 65540 * fullBlocks n + i - 2 - 65540 * fullBlocks n = i := by omega
  simp only [streamSlot, if_neg h1, h2, if_neg (show ¬ 2 + 65540 * fullBlocks n + i < 2 by omega),
    if_pos hi]

theorem streamSlot_data_last {n i : Nat} (hi : i < lastBlock n) :
    streamSlot n (7 + 65540 * fullBlocks n + i) = .data (fullBlocks n) i := by
  have h1 : ¬ (7 + 65540 * fullBlocks n + i - 2) / 65540 < fullBlocks n := by omega
  have h2 : 7 + 65540 * fullBlocks n + i - 2 - 65540 * fullBlocks n = 5 + i := by omega
  simp only [streamSlot, if_neg h1, h2, if_neg (show ¬ 7 + 65540 * fullBlocks n + i < 2 by omega),
    if_neg (show ¬ 5 + i < 5 by omega), if_pos (show 5 + i < 5 + lastBlock n by omega),
    Nat.add_sub_cancel_left]

theorem streamSlot_trailer (n i : Nat) :
    streamSlot n (7 + 65540 * fullBlocks n + lastBlock n + i) = .trailer i := by
  have h1 : ¬ (7 + 65540 * fullBlocks n + lastBlock n + i - 2) / 65540 < fullBlocks n := by omega
  have h2 : 7 + 65540 * fullBlocks n + lastBlock n + i - 2 - 65540 * fullBlocks n
      = 5 + lastBlock n + i := by omega
  simp only [streamSlot, if_neg h1, h2,
    if_neg (show ¬ 7 + 65540 * fullBlocks n + lastBlock n + i < 2 by omega),
    if_neg (show ¬ 5 + lastBlock n + i < 5 by omega),
    if_neg (show ¬ 5 + lastBlock n + i < 5 + lastBlock n by omega)]
  congr 1; omega

/-- Every offset of the StoredStream: the header, a block header or payload, or the trailer. -/
theorem stream_offset_cases {n o : Nat} (h : o < streamSize n) :
    o < 2
      ∨ (∃ b i, b < fullBlocks n ∧ i < 5 ∧ o = 2 + 65540 * b + i)
      ∨ (∃ b i, b < fullBlocks n ∧ i < 65535 ∧ o = 7 + 65540 * b + i)
      ∨ (∃ i, i < 5 ∧ o = 2 + 65540 * fullBlocks n + i)
      ∨ (∃ i, i < lastBlock n ∧ o = 7 + 65540 * fullBlocks n + i)
      ∨ (∃ i, i < 4 ∧ o = 7 + 65540 * fullBlocks n + lastBlock n + i) := by
  rw [streamSize_eq_blocks] at h
  by_cases h1 : o < 2
  · exact .inl h1
  by_cases h2 : (o - 2) / 65540 < fullBlocks n
  · by_cases h3 : (o - 2) % 65540 < 5
    · exact .inr (.inl ⟨(o - 2) / 65540, (o - 2) % 65540, h2, h3, by omega⟩)
    · exact .inr (.inr (.inl ⟨(o - 2) / 65540, (o - 2) % 65540 - 5, h2, by omega, by omega⟩))
  · by_cases h3 : o < 7 + 65540 * fullBlocks n
    · exact .inr (.inr (.inr (.inl ⟨o - (2 + 65540 * fullBlocks n), by omega, by omega⟩)))
    · by_cases h4 : o < 7 + 65540 * fullBlocks n + lastBlock n
      · exact .inr (.inr (.inr (.inr (.inl ⟨o - (7 + 65540 * fullBlocks n), by omega, by omega⟩))))
      · exact .inr (.inr (.inr (.inr (.inr
          ⟨o - (7 + 65540 * fullBlocks n + lastBlock n), by omega, by omega⟩))))

/-- The operation that owns an offset exists exactly inside OUT (R282). -/
theorem owner_isSome {order : ChunkOrder} {n k : Nat} :
    ((slotAt order n k).owner n).isSome ↔ k < 70 + streamSize n := by
  constructor
  · intro h
    by_contra hk
    rw [slotAt_past (by omega)] at h
    simp [Slot.owner] at h
  · intro h
    rcases out_offset_cases order h with h | ⟨j, hj, rfl⟩ | ⟨j, hj, rfl⟩ | ⟨j, hj, rfl⟩ | ⟨j, hj, rfl⟩
    · rw [slotAt_signature h]; rfl
    · rw [slotAt_ihdr hj]; rfl
    · rw [slotAt_idat hj]
      simp only [idatSlot]
      split
      · generalize streamSlot n _ = t
        cases t <;> rfl
      all_goals rfl
    · rw [slotAt_srgb hj]; rfl
    · rw [slotAt_iend hj]; rfl

end Sys2Proof.Machine
end

