-- ==== Sys2Proof/Laws/Records.lean ====
section
/-! SUPPORT. What the record operations can do, said once, and the inversion of a step. -/

namespace Sys2Proof.Machine

/-- The eight record rows of the opcode table. -/
def IsRecord : Instr → Prop
  | .signature | .chunkIHDR | .chunkIDAT | .chunkSRGB | .chunkIEND | .zhdr | .blkhdrNonfinal
  | .blkhdrFinal _ => True
  | .nop _ | .encode _ | .predict _ | .reservedOp3 _ | .formatGray _ | .formatGrayAlpha _
  | .formatRGB _ | .formatRGBA _ => False

/-- An advance of the units writes internal registers alone (R282). -/
def TouchesInternals (s t : State) : Prop :=
  ∃ c a b f r k m x, t = { s with
    crc := c, adlerA := a, adlerB := b, fidx := f, row := r, col := k, blkRem := m, blkIdx := x }

theorem TouchesInternals.refl (s : State) : TouchesInternals s s :=
  ⟨_, _, _, _, _, _, _, _, rfl⟩

/-- The operation that owns a slot is a record. -/
theorem owner_isRecord {t : Slot} {n : Nat} {i : Instr} (h : t.owner n = some i) : IsRecord i := by
  unfold Slot.owner at h
  split at h <;> first | (cases h; trivial) | cases h

/-- A record operation emits one byte while BUSY, or stops: at a missing PIXMEM byte, or where
OUTCNT does not stand in its record (R282). -/
theorem exec_record_cases {i : Instr} (hi : IsRecord i) (s : State) :
    (s.phase = .busy ∧ ∃ b adv, exec i s = emit b adv s ∧ TouchesInternals s (adv s))
    ∨ (∃ a, exec i s = .fault (.pixmemMissing a))
    ∨ exec i s = .refused .notAtThisOffset := by
  have busy : ∀ t, s.slot = t → t ≠ .nothing → s.phase = .busy := by
    intro t ht hn
    unfold State.slot at ht
    split at ht
    · assumption
    · exact absurd ht.symm hn
  have field : ∀ tag len payload f, ∃ b adv, emitField tag len payload f s = emit b adv s
      ∧ TouchesInternals s (adv s) := by
    intro tag len payload f
    obtain ⟨b, adv, he, c, hc⟩ := emitField_cases tag len payload f s
    exact ⟨b, adv, he, _, _, _, _, _, _, _, _, hc⟩
  have header : ∀ final len k, ∃ b adv, emitBlockHeader final len k s = emit b adv s
      ∧ TouchesInternals s (adv s) := by
    intro final len k
    obtain ⟨b, adv, he, c, r, hc⟩ := emitBlockHeader_cases final len k s
    exact ⟨b, adv, he, _, _, _, _, _, _, _, _, hc⟩
  have crcOnly : ∀ b, TouchesInternals s (s.crcAdvance b) :=
    fun b => ⟨_, _, _, _, _, _, _, _, State.crcAdvance_eq b s⟩
  cases i with
  | signature =>
    simp only [exec, execSignature]
    split
    · exact .inl ⟨busy _ ‹_› (by simp), _, _, rfl, TouchesInternals.refl s⟩
    · exact .inr (.inr rfl)
  | chunkIHDR =>
    simp only [exec, execChunkIHDR]
    split
    · exact .inl ⟨busy _ ‹_› (by simp), field _ _ _ _⟩
    · exact .inr (.inr rfl)
  | chunkIDAT =>
    simp only [exec, execChunkIDAT]
    split
    · exact .inl ⟨busy _ ‹_› (by simp), field _ _ _ _⟩
    · unfold emitData
      split
      · exact .inl ⟨busy _ ‹_› (by simp), _, _, rfl, _, _, _, _, _, _, _, _, State.dataAdvance_eq _ s⟩
      · exact .inr (.inl ⟨_, rfl⟩)
    · exact .inl ⟨busy _ ‹_› (by simp), _, _, by unfold emitTrailer; rfl, crcOnly _⟩
    · exact .inr (.inr rfl)
  | chunkSRGB =>
    simp only [exec, execChunkSRGB]
    split
    · exact .inl ⟨busy _ ‹_› (by simp), field _ _ _ _⟩
    · exact .inr (.inr rfl)
  | chunkIEND =>
    simp only [exec, execChunkIEND]
    split
    · exact .inl ⟨busy _ ‹_› (by simp), field _ _ _ _⟩
    · exact .inr (.inr rfl)
  | zhdr =>
    simp only [exec, execZhdr]
    split
    · exact .inl ⟨busy _ ‹_› (by simp), _, _, rfl, crcOnly _⟩
    · exact .inr (.inr rfl)
  | blkhdrNonfinal =>
    simp only [exec, execBlkhdrNonfinal]
    split
    · exact .inl ⟨busy _ ‹_› (by simp), header _ _ _⟩
    · exact .inr (.inr rfl)
  | blkhdrFinal m =>
    simp only [exec, execBlkhdrFinal]
    split
    · exact .inl ⟨busy _ ‹_› (by simp), header _ _ _⟩
    · exact .inr (.inr rfl)
  | nop | encode | predict | reservedOp3 | formatGray | formatGrayAlpha | formatRGB | formatRGBA =>
    exact hi.elim

/-! ## The step -/

theorem step_of_idle {s : State} (h : fetch s = .idle) : step s = .next s := by
  simp [step, h]

theorem step_of_instr {s s' : State} {i : Instr} (h : fetch s = .instr i s') :
    step s = exec i s' := by
  simp [step, h]

theorem step_of_access {s s' : State} {op : HostOp} (h : fetch s = .access op s') :
    step s = hostStep op s' := by
  simp [step, h]

/-- What the fetch gives, by the host's next operation: nothing pending; a CMD or FORMAT word; a sink
answer, or a WAIT, at an offered byte; any other operation. -/
theorem fetch_cases (s : State) :
    (s.program = [] ∧ fetch s = .idle)
    ∨ (∃ w rest, s.program = .write 0x00 .word w :: rest
        ∧ fetch s = .instr (decodeCmd w) { s with program := rest })
    ∨ (∃ w rest, s.program = .write 0x04 .word w :: rest
        ∧ fetch s = .instr (decodeFormat w) { s with program := rest })
    ∨ (∃ a rest i, s.program = .answer a :: rest ∧ s.owner = some i
        ∧ fetch s = .instr i { s with program := rest, answer := some a })
    ∨ (∃ rest i, s.program = .wait :: rest ∧ s.owner = some i
        ∧ fetch s = .instr i { s with answer := some (s.policy.answer s.outcnt.toNat) })
    ∨ (∃ op rest, s.program = op :: rest ∧ fetch s = .access op { s with program := rest }
        ∧ (∀ off w, op = .write off .word w → off ≠ 0x00 ∧ off ≠ 0x04)
        ∧ (∀ a, op = .answer a → s.owner = none) ∧ (op = .wait → s.owner = none)) := by
  match hp : s.program with
  | [] => exact .inl ⟨rfl, by simp [fetch, hp]⟩
  | .write off .word w :: rest =>
    by_cases h0 : off = 0x00
    · subst h0
      exact .inr (.inl ⟨w, rest, rfl, by simp [fetch, hp, decode]⟩)
    · by_cases h4 : off = 0x04
      · subst h4
        exact .inr (.inr (.inl ⟨w, rest, rfl, by simp [fetch, hp, decode]⟩))
      · refine .inr (.inr (.inr (.inr (.inr ⟨_, rest, rfl, ?_, ?_, ?_, ?_⟩))))
        · simp [fetch, hp, decode, h0, h4]
        · rintro _ _ ⟨⟩; exact ⟨h0, h4⟩
        · rintro _ ⟨⟩
        · rintro ⟨⟩
  | .answer a :: rest =>
    match ho : s.owner with
    | some i => exact .inr (.inr (.inr (.inl ⟨a, rest, i, rfl, rfl, by simp [fetch, hp, ho]⟩)))
    | none =>
      refine .inr (.inr (.inr (.inr (.inr ⟨_, rest, rfl, ?_, ?_, ?_, ?_⟩))))
      · simp [fetch, hp, ho]
      · rintro _ _ ⟨⟩
      · intros; rfl
      · rintro ⟨⟩
  | .wait :: rest =>
    match ho : s.owner with
    | some i => exact .inr (.inr (.inr (.inr (.inl ⟨rest, i, rfl, rfl, by simp [fetch, hp, ho]⟩))))
    | none =>
      refine .inr (.inr (.inr (.inr (.inr ⟨_, rest, rfl, ?_, ?_, ?_, ?_⟩))))
      · simp [fetch, hp, ho]
      · rintro _ _ ⟨⟩
      · rintro _ ⟨⟩
      · intros; rfl
  | .write off .byte w :: rest | .write off .half w :: rest | .read off size :: rest
  | .pix a bytes :: rest | .sink p :: rest | .reset :: rest =>
    refine .inr (.inr (.inr (.inr (.inr ⟨_, rest, rfl, ?_, ?_, ?_, ?_⟩))))
    · simp [fetch, hp]
    · rintro _ _ ⟨⟩
    · rintro _ ⟨⟩
    · rintro ⟨⟩

/-- An offered byte has its place inside OUT, and the core is BUSY. -/
theorem owner_some {s : State} {i : Instr} (h : s.owner = some i) :
    s.phase = .busy ∧ s.outcnt.toNat < s.outLen ∧ IsRecord i := by
  have hb : s.phase = .busy := by
    by_contra hb
    simp [State.owner, State.slot, hb, Slot.owner] at h
  refine ⟨hb, ?_, owner_isRecord h⟩
  simp only [State.owner, State.slot, hb, if_true] at h
  exact owner_isSome.1 (by rw [h]; rfl)

/-- While BUSY inside OUT some operation owns the offered byte. -/
theorem owner_of_busy {s : State} (hb : s.phase = .busy) (hk : s.outcnt.toNat < s.outLen) :
    ∃ i, s.owner = some i := by
  have := owner_isSome (order := s.params.order) (n := s.framedLen) (k := s.outcnt.toNat) |>.2 hk
  rw [Option.isSome_iff_exists] at this
  simpa [State.owner, State.slot, hb] using this

end Sys2Proof.Machine
end

