-- ==== Sys2Proof/Laws/Step.lean ====
section
/-! SUPPORT. All the next states there are: of a command word, of a FORMAT word, of a record operation
and of a host operation. With `fetch_cases` they invert a step. -/

namespace Sys2Proof.Machine

/-- A word's low field is one of four. -/
theorem low_cases (w : Word) :
    w.toNat % 4 = 0 ∨ w.toNat % 4 = 1 ∨ w.toNat % 4 = 2 ∨ w.toNat % 4 = 3 := by omega

/-- All that a CMD word can do (R130 to R134). -/
theorem exec_decodeCmd_cases (w : Word) {s t : State} (h : exec (decodeCmd w) s = .next t) :
    t = s
    ∨ (s.phase ≠ .busy ∧ w.toNat % 4 = 1 ∧ ¬ s.ShapeMatches
      ∧ t = s.accept.raiseError .contractViolation 0)
    ∨ (s.phase ≠ .busy ∧ w.toNat % 4 = 1 ∧ s.ShapeMatches ∧ ¬ s.PayloadFits
      ∧ t = s.accept.raiseError .lengthOverflow 0)
    ∨ (s.phase ≠ .busy ∧ w.toNat % 4 = 1 ∧ s.ShapeMatches ∧ s.PayloadFits
      ∧ t = s.accept.startEmission)
    ∨ (s.phase ≠ .busy ∧ w.toNat % 4 = 2 ∧ t = s.accept.setStatus .done .none) := by
  rcases low_cases w with h1 | h1 | h1 | h1
  · simp only [decodeCmd, h1, exec, execNop] at h
    cases h
    exact .inl rfl
  · simp only [decodeCmd, h1, exec, execEncode] at h
    split at h
    · cases h; exact .inl rfl
    · split at h
      · cases h; exact .inr (.inl ⟨‹_›, h1, ‹_›, rfl⟩)
      · split at h
        · cases h; exact .inr (.inr (.inl ⟨‹_›, h1, not_not.1 ‹_›, ‹_›, rfl⟩))
        · cases h
          exact .inr (.inr (.inr (.inl ⟨‹_›, h1, not_not.1 ‹_›, not_not.1 ‹_›, rfl⟩)))
  · simp only [decodeCmd, h1, exec, execPredict] at h
    split at h
    · cases h; exact .inl rfl
    · cases h; exact .inr (.inr (.inr (.inr ⟨‹_›, h1, rfl⟩)))
  · simp only [decodeCmd, h1, exec, execReservedOp3] at h
    cases h
    exact .inl rfl

/-- All that a FORMAT word can do (R135, R136). -/
theorem exec_decodeFormat_cases (w : Word) {s t : State} (h : exec (decodeFormat w) s = .next t) :
    (s.phase = .busy ∧ t = s) ∨ (s.phase ≠ .busy ∧ ∃ f, t = { s with sel := f }) := by
  by_cases hb : s.phase = .busy
  all_goals
    rcases low_cases w with h1 | h1 | h1 | h1 <;>
      simp only [decodeFormat, h1, exec, execFormatGray, execFormatGrayAlpha, execFormatRGB,
        execFormatRGBA, State.selectFormat, hb, if_true, if_false] at h <;> cases h
  any_goals exact .inl ⟨hb, rfl⟩
  all_goals exact .inr ⟨hb, _, rfl⟩

/-- All that a record operation can do: wait, deliver a byte, or end the command (R282, R285, R287). -/
theorem exec_record_next {i : Instr} (hi : IsRecord i) {s t : State} (h : exec i s = .next t) :
    s.phase = .busy
    ∧ ((s.answer = none ∧ t = s)
      ∨ (s.answer = some .accept ∧ ∃ b u, TouchesInternals s u ∧ t = u.deliver b)
      ∨ ∃ code, s.answer = some (.fail code)
        ∧ t = { s with answer := none, sinkcode := code, phase := .error, cause := .sinkFailure }) := by
  rcases exec_record_cases hi s with ⟨hb, b, adv, he, ht⟩ | ⟨a, he⟩ | he
  · rw [he] at h
    refine ⟨hb, ?_⟩
    rcases emit_cases h with ⟨ha, rfl⟩ | ⟨ha, rfl⟩ | ⟨c, ha, rfl⟩
    · exact .inl ⟨ha, rfl⟩
    · exact .inr (.inl ⟨ha, b, _, ht, rfl⟩)
    · exact .inr (.inr ⟨c, ha, rfl⟩)
  · rw [he] at h; cases h
  · rw [he] at h; cases h

/-- All that a host operation other than an instruction can do. -/
theorem hostStep_cases {op : HostOp} {s t : State} (h : hostStep op s = .next t) :
    (∃ w g p, t = { s with width := w, height := g, pixlen := p } ∧ (s.phase = .busy → t = s)
      ∧ ∃ off size v, op = .write off size v)
    ∨ (∃ r, t = { s with reads := r } ∧ ∃ off size, op = .read off size)
    ∨ (∃ a bytes, op = .pix a bytes ∧ s.phase ≠ .busy ∧ a.toNat + bytes.length ≤ 2 ^ 64
      ∧ t = { s with pixmem := Memory.writeBytes s.pixmem a.toNat bytes })
    ∨ (∃ p, op = .sink p ∧ t = { s with policy := p })
    ∨ (op = .wait ∧ s.phase ≠ .busy ∧ t = s)
    ∨ (op = .reset ∧ t = s.resetCore) := by
  cases op with
  | write off size v =>
    simp only [hostStep, hostWrite] at h
    split at h
    · cases h
      rename_i r _
      obtain ⟨w, g, p, hw⟩ := State.writeReg_cases s r v
      exact .inl ⟨w, g, p, hw, fun hb => State.writeReg_of_busy hb r v, _, _, _, rfl⟩
    · cases h
  | read off size =>
    simp only [hostStep, hostRead] at h
    split at h
    · cases h; exact .inr (.inl ⟨_, rfl, _, _, rfl⟩)
    · cases h
  | pix a bytes =>
    simp only [hostStep, hostPix] at h
    split at h
    · cases h
    · split at h
      · cases h; exact .inr (.inr (.inl ⟨_, _, rfl, ‹_›, ‹_›, rfl⟩))
      · cases h
  | answer a =>
    simp only [hostStep, hostAnswer] at h
    split at h <;> cases h
  | sink p => cases h; exact .inr (.inr (.inr (.inl ⟨_, rfl, rfl⟩)))
  | wait =>
    simp only [hostStep, hostWait] at h
    split at h <;> cases h
    exact .inr (.inr (.inr (.inr (.inl ⟨rfl, ‹_›, rfl⟩))))
  | reset => cases h; exact .inr (.inr (.inr (.inr (.inr ⟨rfl, rfl⟩))))

end Sys2Proof.Machine
end

