-- ==== Sys2Proof/Laws/Emission.lean ====
section
/-! SUPPORT. The byte an operation delivers, said once for every chunk, and where it stands. -/

namespace Sys2Proof.Machine

/-- Byte `j` of a chunk as the serializer makes it from the CRC register (R246 to R249). -/
def fieldByte (tag : List Byte) (len : Nat) (payload : Nat → Byte) (crc : Word) (j : Nat) : Byte :=
  if j < 4 then byteOf (be32 (BitVec.ofNat 32 len)) j
  else if j < 8 then byteOf tag (j - 4)
  else if j < 8 + len then payload (j - 8)
  else byteOf (be32 (crcOut crc)) (j - 8 - len)

/-- A chunk byte the sink accepts: it is `fieldByte`, and the CRC register follows `chunkCrc`. -/
theorem emitField_accept (tag : List Byte) (len : Nat) (payload : Nat → Byte) (j : Nat) {s : State}
    (ha : s.answer = some .accept) :
    emitField tag len payload (chunkField len j) s
      = .next ({ s with crc := chunkCrc len j s.crc (fieldByte tag len payload s.crc j) }.deliver
          (fieldByte tag len payload s.crc j)) := by
  by_cases h1 : j < 4
  · simp [chunkField, h1, emitField, emit_of_accept ha, fieldByte, chunkCrc]
  · by_cases h2 : j < 8
    · simp only [chunkField, h1, h2, emitField, emit_of_accept ha, fieldByte, chunkCrc, if_true,
        if_false, State.crcType]
      by_cases h3 : j = 4
      · subst h3; simp
      · simp only [show ¬ (j - 4 = 0) by omega, h3, show j < 8 + len by omega, if_true, if_false,
          State.crcAdvance_eq]
    · by_cases h3 : j < 8 + len
      · simp only [chunkField, h1, h2, h3, emitField, emit_of_accept ha, fieldByte, chunkCrc, if_true,
          if_false, State.crcAdvance_eq, show ¬ (j = 4) by omega]
      · simp [chunkField, h1, h2, h3, emitField, emit_of_accept ha, fieldByte, chunkCrc,
          show ¬ (j = 4) by omega]

theorem TouchesInternals.crc (s : State) (c : Word) : TouchesInternals s { s with crc := c } :=
  ⟨_, _, _, _, _, _, _, _, rfl⟩

theorem TouchesInternals.header (s : State) (c : Word) (m : BitVec 16) :
    TouchesInternals s { s with crc := c, blkRem := m } := ⟨_, _, _, _, _, _, _, _, rfl⟩

theorem TouchesInternals.data (s : State) (b : Byte) : TouchesInternals s (s.dataAdvance b) :=
  ⟨_, _, _, _, _, _, _, _, State.dataAdvance_eq b s⟩

/-- Delivering a byte after an advance of the units is a SINK ACCEPT step (R285). -/
theorem TouchesInternals.delivered {s u : State} (h : TouchesInternals s u) (b : Byte) :
    Delivered s (u.deliver b) b := by
  obtain ⟨_, _, _, _, _, _, _, _, rfl⟩ := h
  rw [State.deliver_eq]
  exact ⟨rfl, rfl, rfl, fun h => ⟨if_pos h, if_pos h⟩, fun h => ⟨if_neg h, if_neg h⟩⟩

/-! ## Where the offered byte stands -/

theorem Offering.slot_eq {s : State} {k : Nat} (h : Offering s k) :
    s.slot = slotAt s.params.order s.framedLen k := by
  simp [State.slot, h.busy, h.at_offset]

/-- A stream offset of the IDAT payload (R281). -/
theorem Offering.stream {s : State} {o : Nat} (h : Offering s (idatStart s.params.order + 8 + o))
    (ho : o < s.streamSize) : s.slot = .stream (streamSlot s.framedLen o) := by
  have ho' : o < streamSize s.framedLen := ho
  rw [h.slot_eq, Nat.add_assoc, slotAt_idat (by omega), idatSlot_payload ho']

/-! ## Rows and blocks of one length -/

theorem length_flatMap_of_const {α β : Type} (l : List α) (f : α → List β) (c : Nat)
    (h : ∀ x ∈ l, (f x).length = c) : (l.flatMap f).length = l.length * c := by
  rw [List.length_flatMap, List.map_congr_left (g := fun _ => c) h]
  simp

/-- Random access into rows that all have `c` bytes. -/
theorem getElem?_flatMap_range {β : Type} {n c : Nat} {f : Nat → List β}
    (hf : ∀ r < n, (f r).length = c) (k : Nat) (hk : k < n * c) :
    ((List.range n).flatMap f)[k]? = (f (k / c))[k % c]? := by
  induction n with
  | zero => simp at hk
  | succ n ih =>
    rw [List.range_succ, List.flatMap_append]
    have hl : ((List.range n).flatMap f).length = n * c := by
      rw [length_flatMap_of_const _ _ c]
      · simp
      · intro x hx
        exact hf x (by simp at hx; omega)
    by_cases h : k < n * c
    · rw [List.getElem?_append_left (by omega)]
      exact ih (fun r hr => hf r (by omega)) h
    · rw [List.getElem?_append_right (by omega), hl]
      have hd : k / c = n := Nat.div_eq_of_lt_le (by omega) hk
      have hm : k % c = k - n * c := by
        have := Nat.div_add_mod k c
        rw [hd, Nat.mul_comm] at this
        omega
      rw [hd, hm]
      simp

/-! ## Running sums -/

theorem adlerSums_append (bs : List Byte) (x : Byte) :
    adlerSums (bs ++ [x]) = adlerUpdate (adlerSums bs) x := by
  simp [adlerSums]

theorem adlerSums_lt (bs : List Byte) :
    (adlerSums bs).1.toNat < 65521 ∧ (adlerSums bs).2.toNat < 65521 := by
  induction bs using List.reverseRecOn with
  | nil => decide
  | append_singleton bs x ih =>
    rw [adlerSums_append]
    simp [adlerUpdate]
    omega

theorem crcRun_append (bs : List Byte) (x : Byte) : crcRun (bs ++ [x]) = crcUpdate (crcRun bs) x := by
  simp [crcRun]

end Sys2Proof.Machine
end

