-- ==== Sys2Proof/Laws/Invariant.lean ====
section
/-! SUPPORT. The invariant looks at the core, PIXMEM and the sink: not at the host agent. -/

namespace Sys2Proof.Machine

/-- A state that agrees on everything but the host agent. -/
theorem RegisterInv.withHost {s : State} (h : RegisterInv s) (p : List HostOp) (k : SinkPolicy)
    (r : List Word) (a : Option SinkAnswer) :
    RegisterInv { s with program := p, policy := k, reads := r, answer := a } where
  flags := h.flags
  sinkcode := h.sinkcode
  idle := h.idle
  busy := fun hb => ⟨(h.busy hb).shape, (h.busy hb).fits, (h.busy hb).inside, (h.busy hb).pred⟩
  done := h.done
  untouched := h.untouched
  failed := h.failed
  bounded := h.bounded

theorem Streaming.withHost {s : State} {pixels : List Byte} (h : Streaming s pixels)
    (p : List HostOp) (k : SinkPolicy) (r : List Word) (a : Option SinkAnswer) :
    Streaming { s with program := p, policy := k, reads := r, answer := a } pixels :=
  ⟨h.counted, h.delivered, h.fidx, h.row, h.col, h.adler, h.crc, h.block⟩

/-- What the host agent holds plays no part in the invariant. -/
theorem Inv.withHost {s : State} (h : Inv s) (p : List HostOp) (k : SinkPolicy) (r : List Word)
    (a : Option SinkAnswer) :
    Inv { s with program := p, policy := k, reads := r, answer := a } where
  registers := h.registers.withHost p k r a
  memory := h.memory
  params := h.params
  streaming := fun hb pixels hp => (h.streaming hb pixels hp).withHost p k r a

theorem Inv.withProgram {s : State} (h : Inv s) (p : List HostOp) : Inv { s with program := p } :=
  h.withHost p s.policy s.reads s.answer

end Sys2Proof.Machine
end

