-- ==== Sys2Proof/Laws/Memory.lean ====
section
/-! SUPPORT. PIXMEM: every operation keeps the canonical form, and a write reads back. -/

namespace Sys2Proof.Machine

@[simp] theorem Memory.read_nil (a : Nat) : Memory.read [] a = none := rfl

theorem Memory.read_cons (c : Host.Cell) (m : List Host.Cell) (a : Nat) :
    Memory.read (c :: m) a = if a = c.1 then some c.2 else Memory.read m a := by
  cases c; rfl

/-- What a write leaves in the list: the written cell, and cells that were there. -/
theorem Memory.mem_write {m : List Host.Cell} {a : Nat} {v : Byte} {c : Host.Cell}
    (h : c ∈ Memory.write m a v) : c = (a, v) ∨ c ∈ m := by
  induction m with
  | nil => simpa [Memory.write] using h
  | cons d rest ih =>
    obtain ⟨b, u⟩ := d
    simp only [Memory.write] at h
    split at h
    · simpa using h
    · split at h
      · rcases List.mem_cons.1 h with h | h
        · exact .inl h
        · exact .inr (List.mem_cons_of_mem _ h)
      · rcases List.mem_cons.1 h with h | h
        · exact .inr (h ▸ List.mem_cons_self)
        · exact (ih h).imp id (List.mem_cons_of_mem _)

/-- A write inside the 64-bit space keeps the canonical form. -/
theorem Memory.wf_write {m : List Host.Cell} {a : Nat} {v : Byte} (hm : Memory.wf m)
    (ha : a < 2 ^ 64) : Memory.wf (Memory.write m a v) := by
  refine ⟨?_, fun c hc => ?_⟩
  · induction m with
    | nil => simp [Memory.write]
    | cons d rest ih =>
      obtain ⟨b, u⟩ := d
      have hp := List.pairwise_cons.1 hm.1
      have hrest : Memory.wf rest := ⟨hp.2, fun c hc => hm.2 c (List.mem_cons_of_mem _ hc)⟩
      simp only [Memory.write]
      split
      · rename_i hlt
        refine List.pairwise_cons.2 ⟨fun c hc => ?_, hm.1⟩
        rcases List.mem_cons.1 hc with rfl | hc
        · exact hlt
        · exact Nat.lt_trans hlt (hp.1 c hc)
      · split
        · rename_i heq
          exact List.pairwise_cons.2 ⟨fun c hc => heq ▸ hp.1 c hc, hp.2⟩
        · refine List.pairwise_cons.2 ⟨fun c hc => ?_, ih hrest⟩
          rcases Memory.mem_write hc with rfl | hc
          · simp only; omega
          · exact hp.1 c hc
  · rcases Memory.mem_write hc with rfl | hc
    · exact ha
    · exact hm.2 c hc

/-- A write of several bytes inside the 64-bit space keeps the canonical form. -/
theorem Memory.wf_writeBytes (bytes : List Byte) {m : List Host.Cell} {a : Nat} (hm : Memory.wf m)
    (ha : a + bytes.length ≤ 2 ^ 64) : Memory.wf (Memory.writeBytes m a bytes) := by
  induction bytes generalizing m a with
  | nil => exact hm
  | cons v vs ih =>
    simp only [List.length_cons] at ha
    exact ih (Memory.wf_write hm (by omega)) (by omega)

/-- Read after write: the written byte at its address, the old byte elsewhere. -/
theorem Memory.read_write (m : List Host.Cell) (a : Nat) (v : Byte) (x : Nat) :
    Memory.read (Memory.write m a v) x = if x = a then some v else Memory.read m x := by
  induction m with
  | nil => simp [Memory.write, Memory.read_cons]
  | cons d rest ih =>
    obtain ⟨b, u⟩ := d
    simp only [Memory.write]
    split
    · simp [Memory.read_cons]
    · split
      · rename_i h
        subst h
        simp only [Memory.read_cons]
        split <;> rfl
      · simp only [Memory.read_cons, ih]
        split
        · rw [if_neg (by omega)]
        · rfl

/-- Reading after a PIX write: the bytes written, and every other one as before (R138). -/
theorem Memory.read_writeBytes (bytes : List Byte) (m : List Host.Cell) (a x : Nat) :
    Memory.read (Memory.writeBytes m a bytes) x
      = if a ≤ x ∧ x < a + bytes.length then bytes[x - a]? else Memory.read m x := by
  induction bytes generalizing m a with
  | nil => simp [Memory.writeBytes]
  | cons b bs ih =>
    simp only [Memory.writeBytes, ih, Memory.read_write, List.length_cons]
    by_cases h : x = a
    · subst h; simp
    · by_cases h2 : a < x
      · have hx : x - a = (x - (a + 1)) + 1 := by omega
        rw [hx, List.getElem?_cons_succ]
        simp only [h, if_false]
        congr 1
        simp
        omega
      · simp [h]
        split <;> split <;> first | omega | rfl

/-- A successful `mapM` reads its list element by element. -/
theorem mapM_eq_some_getElem {α β : Type} {f : α → Option β} {l : List α} {r : List β}
    (h : l.mapM f = some r) :
    r.length = l.length ∧ ∀ k (hk : k < l.length), f l[k] = r[k]? := by
  induction l generalizing r with
  | nil =>
    have : r = [] := by simpa using h.symm
    subst this
    simp
  | cons a l ih =>
    simp only [List.mapM_cons, Option.bind_eq_bind, Option.bind_eq_some_iff] at h
    obtain ⟨b, hb, bs, hbs, hr⟩ := h
    cases hr
    obtain ⟨hl, hg⟩ := ih hbs
    refine ⟨by simp [hl], fun k hk => ?_⟩
    cases k with
    | zero => simpa using hb
    | succ k => simpa using hg k (by simpa using hk)

/-- Every byte of a pixel buffer is the PIXMEM byte at its address. -/
theorem pixelBuffer_read {m : List Host.Cell} {len : Nat} {pixels : List Byte}
    (h : pixelBuffer m len = some pixels) :
    pixels.length = len ∧ ∀ k, k < len → Memory.read m k = pixels[k]? := by
  obtain ⟨hl, hg⟩ := mapM_eq_some_getElem h
  refine ⟨by simpa using hl, fun k hk => ?_⟩
  have := hg k (by simpa using hk)
  rwa [List.getElem_range] at this

end Sys2Proof.Machine
end

