-- ==== Sys2Proof/Laws/PerInstr.lean ====
section
/-! SUPPORT. Facts about every row of the opcode table, one lemma per constructor. -/

namespace Sys2Proof.Laws

/-- The bytes an encoding occupies: a register word is four, a record its own length. -/
def encodedSize : Encoded → Nat
  | .busWrite _ _ => 4
  | .record bytes => bytes.length

/-- The size of a row, from 30_encoding: every command is one 32-bit write (R94); the signature has
eight bytes (R96), a type tag four (R98), the stream header two (R101), a block header five (R103). -/
def rowSize : Instr → Nat
  | .nop _ | .encode _ | .predict _ | .reservedOp3 _ => 4
  | .formatGray _ | .formatGrayAlpha _ | .formatRGB _ | .formatRGBA _ => 4
  | .signature => 8
  | .chunkIHDR | .chunkIDAT | .chunkSRGB | .chunkIEND => 4
  | .zhdr => 2
  | .blkhdrNonfinal | .blkhdrFinal _ => 5

/-- The encoding has the size 30_encoding gives the row. -/
def EncodedSize.Statement (i : Instr) : Prop := encodedSize (encode i) = rowSize i

theorem EncodedSize.nop (rsv : Nat) : EncodedSize.Statement (.nop rsv) := rfl
theorem EncodedSize.encode (rsv : Nat) : EncodedSize.Statement (.encode rsv) := rfl
theorem EncodedSize.predict (rsv : Nat) : EncodedSize.Statement (.predict rsv) := rfl
theorem EncodedSize.reservedOp3 (rsv : Nat) : EncodedSize.Statement (.reservedOp3 rsv) := rfl
theorem EncodedSize.formatGray (rsv : Nat) : EncodedSize.Statement (.formatGray rsv) := rfl
theorem EncodedSize.formatGrayAlpha (rsv : Nat) : EncodedSize.Statement (.formatGrayAlpha rsv) := rfl
theorem EncodedSize.formatRGB (rsv : Nat) : EncodedSize.Statement (.formatRGB rsv) := rfl
theorem EncodedSize.formatRGBA (rsv : Nat) : EncodedSize.Statement (.formatRGBA rsv) := rfl
theorem EncodedSize.signature : EncodedSize.Statement .signature := rfl
theorem EncodedSize.chunkIHDR : EncodedSize.Statement .chunkIHDR := rfl
theorem EncodedSize.chunkIDAT : EncodedSize.Statement .chunkIDAT := rfl
theorem EncodedSize.chunkSRGB : EncodedSize.Statement .chunkSRGB := rfl
theorem EncodedSize.chunkIEND : EncodedSize.Statement .chunkIEND := rfl
theorem EncodedSize.zhdr : EncodedSize.Statement .zhdr := rfl
theorem EncodedSize.blkhdrNonfinal : EncodedSize.Statement .blkhdrNonfinal := rfl
theorem EncodedSize.blkhdrFinal (m : Nat) : EncodedSize.Statement (.blkhdrFinal m) := rfl

end Sys2Proof.Laws
end

