-- ==== Sys2Proof/Tests/Slice0.lean ====
section
/-! SUPPORT. Small tests, their expected results from 30_encoding and 95_test_vectors, and a witness
for the hypotheses of every statement that has some. -/

namespace Sys2Proof.Tests

open Sys2Proof Sys2Proof.Machine

/-! ## Well-formedness -/

/-- One ill-formed term for each check: a reserved field of 31 bits (R90, R91), a terminal block of
65535 bytes (R202). -/
theorem test_wellFormed_refuses :
    ¬ (Instr.nop (2 ^ 30)).WellFormed ∧ ¬ (Instr.encode (2 ^ 30)).WellFormed
      ∧ ¬ (Instr.predict (2 ^ 30)).WellFormed ∧ ¬ (Instr.reservedOp3 (2 ^ 30)).WellFormed
      ∧ ¬ (Instr.formatGray (2 ^ 30)).WellFormed ∧ ¬ (Instr.formatGrayAlpha (2 ^ 30)).WellFormed
      ∧ ¬ (Instr.formatRGB (2 ^ 30)).WellFormed ∧ ¬ (Instr.formatRGBA (2 ^ 30)).WellFormed
      ∧ ¬ (Instr.blkhdrFinal 65535).WellFormed := by decide

theorem test_wellFormed_accepts :
    (Instr.nop (2 ^ 30 - 1)).WellFormed ∧ (Instr.blkhdrFinal 65534).WellFormed
      ∧ Instr.signature.WellFormed := by decide

/-! ## Decoding, each word written out from 30_encoding -/

/-- R90: OP in bits 1:0, bits 31:2 ignored. -/
theorem test_decode_commands :
    decode (.busWrite 0x00 0b00000000000000000000000000000000) = .ok (.nop 0)
      ∧ decode (.busWrite 0x00 0b00000000000000000000000000000001) = .ok (.encode 0)
      ∧ decode (.busWrite 0x00 0b00000000000000000000000000000010) = .ok (.predict 0)
      ∧ decode (.busWrite 0x00 0b00000000000000000000000000000011) = .ok (.reservedOp3 0)
      ∧ decode (.busWrite 0x00 0b10000000000000000000000000000101)
        = .ok (.encode 0b100000000000000000000000000001) := by decide

/-- R91: SEL in bits 1:0 of FORMAT. -/
theorem test_decode_formats :
    decode (.busWrite 0x04 0b00000000000000000000000000000000) = .ok (.formatGray 0)
      ∧ decode (.busWrite 0x04 0b00000000000000000000000000000001) = .ok (.formatGrayAlpha 0)
      ∧ decode (.busWrite 0x04 0b00000000000000000000000000000010) = .ok (.formatRGB 0)
      ∧ decode (.busWrite 0x04 0b11111111111111111111111111111111)
        = .ok (.formatRGBA 0b111111111111111111111111111111) := by decide

/-- R96, R98, R101, R103 and the PACKAGER table of 95: the record patterns. -/
theorem test_decode_records :
    decode (.record [0x89, 0x50, 0x4E, 0x47, 0x0D, 0x0A, 0x1A, 0x0A]) = .ok .signature
      ∧ decode (.record [0x49, 0x48, 0x44, 0x52]) = .ok .chunkIHDR
      ∧ decode (.record [0x49, 0x44, 0x41, 0x54]) = .ok .chunkIDAT
      ∧ decode (.record [0x73, 0x52, 0x47, 0x42]) = .ok .chunkSRGB
      ∧ decode (.record [0x49, 0x45, 0x4E, 0x44]) = .ok .chunkIEND
      ∧ decode (.record [0x78, 0x01]) = .ok .zhdr
      ∧ decode (.record [0x00, 0xFF, 0xFF, 0x00, 0x00]) = .ok .blkhdrNonfinal
      ∧ decode (.record [0x01, 0x00, 0x01, 0xFF, 0xFE]) = .ok (.blkhdrFinal 256)
      ∧ decode (.record [0x01, 0xFE, 0xFF, 0x01, 0x00]) = .ok (.blkhdrFinal 65534) := by decide

/-- What is no instruction is rejected by name. -/
theorem test_decode_rejects :
    decode (.busWrite 0x08 7) = .error (.notAnInstructionRegister 8)
      ∧ decode (.record []) = .error .unknownRecord
      ∧ decode (.record [0x49, 0x48, 0x44]) = .error .unknownRecord
      ∧ decode (.record [0x01, 0x04, 0x00, 0xFA, 0xFF]) = .error .lengthCheckFailed
      ∧ decode (.record [0x00, 0x04, 0x00, 0xFB, 0xFF]) = .error .nonfinalNotFull
      ∧ decode (.record [0x01, 0xFF, 0xFF, 0x00, 0x00]) = .error .finalTooLong
      ∧ decode (.record [0x78, 0x01, 0x00]) = .error .trailingBytes := by decide

/-- The table's rows as `decodeTableWord` numbers their bits (log 8). -/
theorem test_decodeTableWord :
    decodeTableWord 32 0x00000001 = some (.encode 0)
      ∧ decodeTableWord 64 0x0A1A0A0D474E5089 = some .signature
      ∧ decodeTableWord 32 0x54414449 = some .chunkIDAT
      ∧ decodeTableWord 16 0x0178 = some .zhdr
      ∧ decodeTableWord 8 0x00 = some .blkhdrNonfinal
      ∧ decodeTableWord 8 0x01 = some (.blkhdrFinal 0)
      ∧ decodeTableWord 40 0xFFFB000401 = some (.blkhdrFinal 4)
      ∧ decodeTableWord 64 0x0000000400000002 = some (.formatRGB 0) := by decide

/-! ## The closed forms against 95_test_vectors -/

/-- V1, both chunk orders. -/
theorem test_out_V1 :
    out Params.core .rgb 1 1 [0x0A, 0x14, 0x1E] =
      [0x89, 0x50, 0x4E, 0x47, 0x0D, 0x0A, 0x1A, 0x0A,
       0x00, 0x00, 0x00, 0x0D, 0x49, 0x48, 0x44, 0x52, 0x00, 0x00, 0x00, 0x01, 0x00, 0x00, 0x00, 0x01,
       0x08, 0x02, 0x00, 0x00, 0x00, 0x90, 0x77, 0x53, 0xDE]
      ++ [0x00, 0x00, 0x00, 0x0F, 0x49, 0x44, 0x41, 0x54, 0x78, 0x01, 0x01, 0x04, 0x00, 0xFB, 0xFF,
       0x00, 0x0A, 0x14, 0x1E, 0x00, 0x68, 0x00, 0x3D, 0xE8, 0x0C, 0xBB, 0x83]
      ++ [0x00, 0x00, 0x00, 0x01, 0x73, 0x52, 0x47, 0x42, 0x00, 0xAE, 0xCE, 0x1C, 0xE9]
      ++ [0x00, 0x00, 0x00, 0x00, 0x49, 0x45, 0x4E, 0x44, 0xAE, 0x42, 0x60, 0x82] := by
  decide +kernel

/-- V6: W = 0, H = 2 keeps its two tag bytes (90 C2): the IDAT chunk. -/
theorem test_out_V6 :
    ((out Params.core .gray 0 2 []).drop 33).take 25 =
      [0x00, 0x00, 0x00, 0x0D, 0x49, 0x44, 0x41, 0x54, 0x78, 0x01, 0x01, 0x02, 0x00, 0xFD, 0xFF,
       0x00, 0x00, 0x00, 0x02, 0x00, 0x01, 0x7E, 0x05, 0x0D, 0xD2] := by decide +kernel

/-- FRAMER table: RGB 1 x 2. -/
theorem test_frame :
    frame [0x0A, 0x0B, 0x0C, 0x0D, 0x0E, 0x0F] .rgb 1 2
      = [0x00, 0x0A, 0x0B, 0x0C, 0x00, 0x0D, 0x0E, 0x0F] := by decide

/-- PREDICTOR table: a block boundary, and the largest PRED. -/
theorem test_predictedSize :
    predictedSize .rgba 16384 1 = 65623 ∧ predictedSize .gray 0 65535 = 65621
      ∧ predictedSize .rgba 4294967295 4294967295 = 73792605850206011461 := by decide

/-- ADLER and CRC tables: "abc", "123456789". -/
theorem test_checksums :
    adler32 [0x61, 0x62, 0x63] = 0x024D0127
      ∧ crc32 [0x31, 0x32, 0x33, 0x34, 0x35, 0x36, 0x37, 0x38, 0x39] = 0xCBF43926 := by
  decide +kernel

/-! ## Steps -/

/-- The next state, where there is one. -/
def nextState : Host.Outcome State Fault Refusal → Option State
  | .next s => some s
  | .fault _ => none
  | .refused _ => none

/-- The shape of V1 with its pixel buffer in PIXMEM, not BUSY. -/
def rgbPixel : State :=
  { State.reset with
    sel := .rgb
    width := 1
    height := 1
    pixlen := 3
    pixmem := [(0, 0x0A), (1, 0x14), (2, 0x1E)] }

/-- The same with an ENCODE accepted, nothing emitted yet. -/
def rgbBusy : State := rgbPixel.accept.startEmission

/-- BUSY at offset `k`, over `h` rows of no bytes, the sink accepting. -/
def offeringAt (h k : Nat) : State :=
  { State.reset.poise h k with answer := some .accept, program := [] }

/-- E1: PIXLEN 2 is a contract violation (STATUS 0x13), PRED 85. -/
theorem test_encode_short :
    (nextState (exec (.encode 0) { rgbPixel with pixlen := 2 })).map
        (fun t => (t.readReg .status, t.outcnt, t.pred, t.sink))
      = some (0x13, 0, 85, []) := by decide

/-- E1: Gray 2147319809 x 1 overflows (STATUS 0x33), and 2147319808 x 1 starts (STATUS 0x01). -/
theorem test_encode_overflow :
    ([(2147319809, 0x33), (2147319808, 0x01)] : List (Nat × Word)).all (fun p =>
      (nextState (exec (.encode 5) { State.reset with
          width := BitVec.ofNat 32 p.1, height := 1, pixlen := BitVec.ofNat 64 p.1 })).map
        (fun t => t.readReg .status) == some p.2) = true := by decide

/-- R132's example: Gray 2 x 2 predicts 87. -/
theorem test_predict :
    (nextState (exec (.predict 0) { State.reset with width := 2, height := 2 })).map
        (fun t => (t.pred, t.readReg .status)) = some (87, 0x02) := by decide

/-- E2: FORMAT reads 3 after a write of all ones. -/
theorem test_format_write :
    (nextState (step { State.reset with program := [wr 0x04 0xFFFFFFFF] })).map
        (fun t => t.readReg .format) = some 3 := by decide

/-- E2: while BUSY, a write of WIDTH and a CMD write are ignored. -/
theorem test_busy_writes :
    nextState (step { rgbBusy with program := [wr 0x08 7] }) = some rgbBusy
      ∧ nextState (step { rgbBusy with program := [wr 0x00 2] }) = some rgbBusy := by decide

/-- CRC table of 95: the type byte 'I' from CRC_INIT. -/
theorem test_header_type_byte :
    (nextState (exec .chunkIHDR (offeringAt 0 12))).map (fun t => (t.crc, t.sink))
      = some (0x22FDE946, [0x49]) := by decide

/-- R285's example: accepting byte 0x82 at OUTCNT 84 of 85 ends DONE. -/
theorem test_last_byte :
    (nextState (step { rgbBusy with
        outcnt := 84, crc := 0x51BD9F7D, program := [.answer .accept] })).map
      (fun t => (t.outcnt, t.readReg .status, t.sink)) = some (85, 0x02, [0x82]) := by
  decide

/-- P2: the sink fails byte 30 with code 5. -/
theorem test_sink_failure :
    (nextState (step { rgbBusy with outcnt := 30, program := [.answer (.fail 5)] })).map
      (fun t => (t.outcnt, t.readReg .status, t.sinkcode, t.sink)) = some (30, 0x23, 5, []) := by
  decide

/-- R207, V1: the second framed byte is PIXMEM[0], and the Adler sums after it are (11, 12). -/
theorem test_payload_byte :
    (nextState (exec .chunkIDAT { rgbBusy with
        outcnt := 49, fidx := 1, col := 1, adlerB := 1, blkRem := 3, answer := some .accept })).map
      (fun t => (t.sink, t.adlerA, t.adlerB)) = some ([0x0A], 11, 12) := by decide

/-- R209, V1: the third trailer byte. -/
theorem test_trailer_byte :
    (nextState (exec .chunkIDAT { rgbBusy with
        outcnt := 53, adlerA := 0x3D, adlerB := 0x68, answer := some .accept })).map
      (fun t => t.sink) = some [0x68] := by decide

/-- B1: the second LEN byte of the first block's header at n = 65535, and NLEN after m = 4. -/
theorem test_block_headers :
    (nextState (exec .blkhdrNonfinal (offeringAt 65535 45))).map (fun t => t.sink) = some [0xFF]
      ∧ (nextState (exec (.blkhdrFinal 4) (offeringAt 4 46))).map (fun t => t.sink) = some [0xFB]
      ∧ (nextState (exec .zhdr (offeringAt 4 41))).map (fun t => t.sink) = some [0x78] := by
  decide

/-- R276, R277: constant bytes of sRGB and IEND. -/
theorem test_fixed_chunks :
    (nextState (exec .chunkSRGB (offeringAt 0 (56 + 4)))).map (fun t => t.sink) = some [0x73]
      ∧ (nextState (exec .chunkIEND (offeringAt 0 (69 + 4)))).map (fun t => t.sink) = some [0x49]
      ∧ (nextState (exec .signature (offeringAt 0 1))).map (fun t => t.sink) = some [0x50] := by
  decide

/-- NOP and OP 3 leave an error (E2). -/
theorem test_nop_in_error :
    let s := rgbPixel.accept.raiseError .sinkFailure 5
    nextState (exec (.nop 0) s) = some s ∧ nextState (exec (.reservedOp3 7) s) = some s := by
  decide

/-- The four FORMAT words select their SEL. -/
theorem test_formats :
    (nextState (exec (.formatGray 0) rgbPixel)).map (·.sel) = some .gray
      ∧ (nextState (exec (.formatGrayAlpha 0) rgbPixel)).map (·.sel) = some .grayAlpha
      ∧ (nextState (exec (.formatRGB 0) State.reset)).map (·.sel) = some .rgb
      ∧ (nextState (exec (.formatRGBA 0) rgbPixel)).map (·.sel) = some .rgba := by decide

/-! ## Witnesses: states that meet the hypotheses of the statements -/

theorem witness_DecodeInvertsEncode :
    (Instr.nop (2 ^ 30 - 1)).WellFormed ∧ (Instr.blkhdrFinal 65534).WellFormed := by decide

theorem witness_ReservedBitsAreIgnored :
    (0xFFFFFFF8 : Word).toNat % 4 = 0 ∧ (7 : Word).toNat % 4 = 3
      ∧ (0xFFFFFFFD : Word).toNat % 4 = (1 : Word).toNat % 4 := by decide

theorem witness_StepRunsTheDecodedInstruction :
    ({ State.reset with program := [wr 0x00 1] }.program = [.write 0x00 .word 1]
        ∧ decode (.busWrite 0x00 1) = .ok (.encode 0))
      ∧ ({ rgbBusy with program := [.answer .accept] }.program = [.answer .accept]
        ∧ { rgbBusy with program := [.answer .accept] }.owner = some .signature)
      ∧ ({ rgbBusy with program := [.wait] }.program = [.wait]
        ∧ { rgbBusy with program := [.wait] }.owner = some .signature) := by decide

theorem witness_PlacedInstructionIsFetched :
    (Instr.blkhdrFinal 65534).WellFormed ∧ (Instr.formatRGBA (2 ^ 30 - 1)).WellFormed := by decide

theorem witness_OtherInstancesDoNotMove :
    stepInstance 1 [rgbPixel, State.reset] = .next [rgbPixel, State.reset] := rfl

/-- Not BUSY: the premise of the command and format statements, with a decoded word of each class. -/
theorem witness_quiet :
    rgbPixel.phase ≠ .busy ∧ rgbBusy.phase = .busy
      ∧ { rgbBusy with program := [wr 0x00 0xFFFFFFFE] }.program = [.write 0x00 .word 0xFFFFFFFE] := by
  decide

theorem witness_NopAndReservedOp3HaveNoEffect :
    (4 : Word).toNat % 4 = 0 ∧ (0xFFFFFFFF : Word).toNat % 4 = 3 := by decide

theorem witness_CommandWhileBusyIsIgnored :
    let s := { rgbBusy with program := [wr 0x00 1] }
    s.phase = .busy ∧ s.program = .write 0x00 .word 1 :: [] := by decide

theorem witness_PredictCompletesInItsAcceptStep : rgbPixel.phase ≠ .busy := by decide

theorem witness_EncodeStartsEmission :
    rgbPixel.phase ≠ .busy
      ∧ rgbPixel.pixlen.toNat = rgbPixel.width.toNat * rgbPixel.height.toNat * rgbPixel.sel.channels
      ∧ streamSize (framedLen rgbPixel.sel rgbPixel.width.toNat rgbPixel.height.toNat)
        ≤ rgbPixel.params.maxChunkLen.toNat := by decide

/-- Both errors: PIXLEN one byte long, and a shape one row over MAX_CHUNK_LEN (E1). -/
theorem witness_EncodeErrorsLeaveTheSinkUntouched :
    let s := { rgbPixel with pixlen := 4 }
    let t := { State.reset with width := 2147319809, height := 1, pixlen := 2147319809 }
    (s.phase ≠ .busy ∧ s.pixlen.toNat ≠ s.width.toNat * s.height.toNat * s.sel.channels)
      ∧ (t.phase ≠ .busy ∧ t.pixlen.toNat = t.width.toNat * t.height.toNat * t.sel.channels
        ∧ t.params.maxChunkLen.toNat
          < streamSize (framedLen t.sel t.width.toNat t.height.toNat)) := by decide

theorem witness_CommandsInError :
    let s := rgbPixel.accept.raiseError .sinkFailure 5
    s.phase = .error ∧ s.ShapeMatches ∧ s.PayloadFits
      ∧ (nextState (exec (.nop 0) s)).isSome ∧ (nextState (exec (.reservedOp3 0) s)).isSome
      ∧ (nextState (exec (.predict 0) s)).isSome ∧ (nextState (exec (.encode 0) s)).isSome := by
  decide

theorem witness_FormatWordsSelectTheirFormat : State.reset.phase ≠ .busy := by decide

/-- A write at each of the five configuration offsets. -/
theorem witness_ConfigurationWriteSetsItsRegister :
    [0x04, 0x08, 0x0C, 0x10, 0x14].all (fun off =>
      let s := { rgbPixel with program := [wr off 0xFFFFFFFF] }
      decide (s.phase ≠ .busy ∧ s.program = .write off .word 0xFFFFFFFF :: [])) = true := by
  decide

theorem witness_ConfigurationWriteWhileBusyIsIgnored :
    [0x04, 0x08, 0x0C, 0x10, 0x14].all (fun off =>
      let s := { rgbBusy with program := [wr off 7] }
      decide (s.phase = .busy ∧ s.program = .write off .word 7 :: [])) = true := by decide

/-- The first and the last read-only or reserved offset. -/
theorem witness_ReadOnlyRegistersIgnoreWrites :
    [0x18, 0x3C].all (fun off =>
      let s := { rgbPixel with program := [wr off 7] }
      decide (0x18 ≤ off ∧ off < 0x40 ∧ off % 4 = 0 ∧ s.program = .write off .word 7 :: [])) = true := by
  decide

/-- Every row of the register map, at a state with something in each register. -/
theorem witness_RegisterReadReturnsItsValue :
    (registerMap rgbBusy).length = 16
      ∧ (registerMap rgbBusy).all (fun p =>
        let s := { rgbBusy with program := [rd p.1] }
        decide (p ∈ registerMap s ∧ s.program = .read p.1 .word :: [])) = true := by decide

/-- One access of each undefined kind: sub-word, misaligned, out of range. -/
theorem witness_UndefinedRegisterAccessIsRefused :
    let w := fun (off : Nat) (size : AccessSize) =>
      ({ rgbPixel with program := [.write off size 1] }, { rgbPixel with program := [.read off size] })
    (AccessSize.byte ≠ .word ∧ (w 0x08 .byte).1.program = .write 0x08 .byte 1 :: []
        ∧ (w 0x08 .byte).2.program = .read 0x08 .byte :: [])
      ∧ (0x3F % 4 ≠ 0 ∧ (w 0x3F .word).1.program = .write 0x3F .word 1 :: []
        ∧ (w 0x3F .word).2.program = .read 0x3F .word :: [])
      ∧ (0x40 ≤ 0x40 ∧ (w 0x40 .word).1.program = .write 0x40 .word 1 :: []
        ∧ (w 0x40 .word).2.program = .read 0x40 .word :: []) := by decide

theorem witness_ResetClearsTheCore :
    { rgbBusy with program := [.reset] }.program = .reset :: [] := by decide

/-- A write of the last two bytes of the space. -/
theorem witness_PixmemWriteLandsInItsBytes :
    let s := { rgbPixel with program := [.pix 0xFFFFFFFFFFFFFFFE [1, 2]] }
    s.phase ≠ .busy ∧ (0xFFFFFFFFFFFFFFFE : BitVec 64).toNat + [(1 : Byte), 2].length ≤ 2 ^ 64
      ∧ s.program = .pix 0xFFFFFFFFFFFFFFFE [1, 2] :: [] := by decide

theorem witness_PixmemWriteWhileBusyIsRefused :
    let s := { rgbBusy with program := [.pix 0 [1]] }
    s.phase = .busy ∧ s.program = .pix 0 [1] :: [] := by decide

theorem witness_CoreNeverWritesPixmem :
    step rgbPixel = .next rgbPixel ∧ ∀ a bytes rest, rgbPixel.program ≠ .pix a bytes :: rest :=
  ⟨rfl, fun _ _ _ h => nomatch h⟩

theorem witness_PixmemKeepsItsForm :
    Memory.wf rgbPixel.pixmem ∧ step rgbPixel = .next rgbPixel := ⟨by decide, rfl⟩

theorem witness_MissingPixelByteStopsTheCore :
    let s := { rgbBusy with outcnt := 49, col := 1, pixmem := [] }
    s.phase = .busy ∧ s.slot = .stream (.data 0 1) ∧ s.col ≠ 0
      ∧ Memory.read s.pixmem (s.row.toNat * s.stride + (s.col.toNat - 1)) = none := by decide

theorem offeringAt_spec {h k : Nat} (hk : k < 2 ^ 64) : Offering (offeringAt h k) k :=
  ⟨rfl, Nat.mod_eq_of_lt hk, rfl⟩

theorem witness_SignatureByteIsDelivered : Offering (offeringAt 0 7) 7 ∧ 7 < 8 :=
  ⟨offeringAt_spec (by decide), by decide⟩

theorem witness_HeaderChunkByteIsDelivered :
    Offering (offeringAt 0 (8 + 0)) (8 + 0) ∧ Offering (offeringAt 0 (8 + 24)) (8 + 24) ∧ 24 < 25 :=
  ⟨offeringAt_spec (by decide), offeringAt_spec (by decide), by decide⟩

/-- Both chunk orders, at the chunk's first and last byte. -/
theorem witness_ColourSpaceChunkByteIsDelivered :
    (Offering (offeringAt 0 (56 + 12)) (56 + 12) ∧ (offeringAt 0 68).params.order = .idatFirst
        ∧ 56 = 45 + (offeringAt 0 68).streamSize)
      ∧ (let s := { offeringAt 0 33 with
            params := { Params.core with order := .srgbFirst } }
        Offering s (33 + 0) ∧ s.params.order = .srgbFirst) :=
  ⟨⟨offeringAt_spec (by decide), by decide, by decide⟩, ⟨⟨rfl, by decide, rfl⟩, rfl⟩⟩

theorem witness_TerminatorChunkByteIsDelivered :
    Offering (offeringAt 0 80) (58 + (offeringAt 0 80).streamSize + 11) ∧ 11 < 12 :=
  ⟨⟨rfl, by decide, rfl⟩, by decide⟩

/-- A length byte, a type byte and a CRC byte. -/
theorem witness_PixelDataChunkFrameIsDelivered :
    (Offering (offeringAt 0 (33 + 0)) (33 + 0) ∧ 0 < 8)
      ∧ (Offering (offeringAt 0 (33 + 7)) (33 + 7) ∧ 7 < 8)
      ∧ (Offering (offeringAt 0 (33 + 19)) (33 + 19) ∧ 8 + (offeringAt 0 52).streamSize ≤ 19
        ∧ 19 < 12 + (offeringAt 0 52).streamSize)
      ∧ (offeringAt 0 33).params.order = .idatFirst :=
  ⟨⟨offeringAt_spec (by decide), by decide⟩, ⟨offeringAt_spec (by decide), by decide⟩,
    ⟨offeringAt_spec (by decide), by decide, by decide⟩, rfl⟩

theorem witness_StreamHeaderByteIsDelivered :
    Offering (offeringAt 0 (33 + 8 + 1)) (33 + 8 + 1) ∧ (1 < 2)
      ∧ (offeringAt 0 42).params.order = .idatFirst :=
  ⟨offeringAt_spec (by decide), by decide, rfl⟩

/-- The last header byte of the second of two full blocks. -/
theorem witness_NonfinalBlockHeaderIsDelivered :
    Offering (offeringAt 131070 (33 + 8 + (2 + 65540 * 1) + 4)) (33 + 8 + (2 + 65540 * 1) + 4)
      ∧ 1 < (offeringAt 131070 0).framedLen / 65535 ∧ (offeringAt 131070 0).params.order = .idatFirst :=
  ⟨offeringAt_spec (by decide), by decide, rfl⟩

theorem witness_TerminalBlockHeaderIsDelivered :
    Offering (offeringAt 65536 65587)
        (33 + 8 + (2 + 65540 * ((offeringAt 65536 65587).framedLen / 65535)) + 4)
      ∧ (offeringAt 65536 0).params.order = .idatFirst :=
  ⟨⟨rfl, by decide, rfl⟩, rfl⟩

/-- A tag byte of a full block and of the last one, and a pixel byte. -/
theorem witness_PayloadByteIsDelivered :
    (Offering (offeringAt 65536 (33 + 8 + (7 + 65540 * 0) + 65534)) (33 + 8 + (7 + 65540 * 0) + 65534)
        ∧ 0 < (offeringAt 65536 0).framedLen / 65535 ∧ (offeringAt 65536 0).col = 0)
      ∧ (Offering (offeringAt 65536 (33 + 8 + (7 + 65540 * 1) + 0)) (33 + 8 + (7 + 65540 * 1) + 0)
        ∧ 1 = (offeringAt 65536 0).framedLen / 65535 ∧ 0 < (offeringAt 65536 0).framedLen % 65535)
      ∧ (let s := { rgbBusy with outcnt := 49, fidx := 1, col := 1, answer := some .accept }
        Offering s (33 + 8 + (7 + 65540 * 0) + 1) ∧ 0 = s.framedLen / 65535
          ∧ 1 < s.framedLen % 65535 ∧ s.col ≠ 0 ∧ s.params.order = .idatFirst
          ∧ Memory.read s.pixmem (s.row.toNat * s.stride + (s.col.toNat - 1)) = some 0x0A) :=
  ⟨⟨offeringAt_spec (by decide), by decide, by decide⟩,
    ⟨offeringAt_spec (by decide), by decide, by decide⟩,
    ⟨⟨rfl, by decide, rfl⟩, by decide, by decide, by decide, rfl, by decide⟩⟩

theorem witness_TrailerByteIsDelivered :
    Offering (offeringAt 65536 65592)
        (33 + 8 + (7 + 65540 * ((offeringAt 65536 65592).framedLen / 65535)
          + (offeringAt 65536 65592).framedLen % 65535) + 3)
      ∧ (offeringAt 65536 0).params.order = .idatFirst :=
  ⟨⟨rfl, by decide, rfl⟩, rfl⟩

theorem witness_SinkFailureAdvancesNothing :
    let s := { rgbBusy with answer := some (.fail 5) }
    s.answer = some (.fail 5) ∧ (nextState (exec .signature s)).isSome := by decide

theorem witness_OnlySinkAnswersAdvanceARunningEncode :
    rgbBusy.phase = .busy ∧ step rgbBusy = .next rgbBusy ∧ rgbBusy.program = [] := ⟨rfl, rfl, rfl⟩

/-- Each cause arises in some step. -/
theorem witness_EachCauseHasOneOrigin :
    let cause := fun s => (nextState (step s)).map (·.cause)
    cause { rgbPixel with pixlen := 4, program := [opEncode] } = some .contractViolation
      ∧ cause { State.reset with
          width := 2147319809, height := 1, pixlen := 2147319809, program := [opEncode] }
        = some .lengthOverflow
      ∧ cause { rgbBusy with program := [.answer (.fail 0)] } = some .sinkFailure
      ∧ cause { rgbBusy with policy := .failAt 0 7, program := [.wait] } = some .sinkFailure
      ∧ rgbPixel.cause = .none ∧ rgbBusy.cause = .none := by decide

/-- STATUS changes at a command, at a sink answer and at a reset. -/
theorem witness_StatusChangesOnlyWhereTheSpecSays :
    let status := fun s => (nextState (step s)).map (fun t => (t.phase, t.cause))
    status { rgbPixel with program := [opEncode] } = some (.busy, .none)
      ∧ status { rgbBusy with program := [.answer (.fail 0)] } = some (.error, .sinkFailure)
      ∧ status { rgbBusy with program := [.reset] } = some (.idle, .none) := by decide

theorem witness_SinkOnlyGrows :
    (nextState (step { rgbBusy with program := [.answer .accept] })).map (·.sink) = some [0x89] := by
  decide

theorem witness_OutputLengthIsThePredictedSize :
    [(0x0A : Byte), 0x14, 0x1E].length = (1 : Word).toNat * (1 : Word).toNat * ColorFormat.rgb.channels := by
  decide

theorem witness_FramedByteIsRandomAccess :
    pixelBuffer rgbPixel.pixmem (1 * 1 * ColorFormat.rgb.channels) = some [0x0A, 0x14, 0x1E]
      ∧ 3 < framedLen .rgb 1 1 := by decide

theorem witness_FramerNextWalksTheFramedBuffer :
    let s := { rgbBusy with fidx := 3, col := 3 }
    3 < s.framedLen ∧ s.fidx.toNat = 3 ∧ s.row.toNat = 3 / (s.stride + 1)
      ∧ s.col.toNat = 3 % (s.stride + 1) := by decide

theorem witness_RecordOffsets :
    [(0x0A : Byte), 0x14, 0x1E].length = (1 : Word).toNat * (1 : Word).toNat * ColorFormat.rgb.channels
      ∧ Params.core.order = .idatFirst
      ∧ { Params.core with order := .srgbFirst }.order = .srgbFirst := by decide

/-- The pixel buffer of `rgbPixel`. -/
theorem rgbPixel_pixels : rgbPixel.pixels = some [0x0A, 0x14, 0x1E] := by decide

theorem rgbPixel_ready : Ready rgbPixel [0x0A, 0x14, 0x1E] :=
  ⟨by decide, by decide, by decide, rgbPixel_pixels⟩

theorem rgbBusy_running : Running rgbBusy :=
  ⟨by decide, by decide, by decide, by decide⟩

/-- A BUSY state with its buffer meets the whole invariant. -/
theorem rgbBusy_inv : Inv rgbBusy where
  registers :=
    ⟨by decide, by decide, by decide, fun _ => rgbBusy_running, by decide, by decide, by decide,
      by decide⟩
  memory := by decide
  params := by decide
  streaming := fun _ pixels h => by
    obtain rfl : pixels = [0x0A, 0x14, 0x1E] := Option.some.inj (h.symm.trans rgbPixel_pixels)
    exact ⟨by decide, by decide, by decide, by decide, by decide,
      by decide, (fun _ hs => nomatch hs), by decide⟩

theorem witness_EveryStepKeepsTheInvariant : Inv rgbBusy ∧ step rgbBusy = .next rgbBusy :=
  ⟨rgbBusy_inv, rfl⟩

theorem witness_AcceptDeliversTheByteOfOut :
    let s := { rgbBusy with program := [.answer .accept] }
    Inv s ∧ s.phase = .busy ∧ s.pixels = some [0x0A, 0x14, 0x1E]
      ∧ s.program = .answer .accept :: [] :=
  ⟨rgbBusy_inv.withProgram _, rfl, rgbPixel_pixels, rfl⟩

theorem witness_FailEndsTheCommand :
    let s := { rgbBusy with program := [.answer (.fail 5)] }
    Inv s ∧ s.phase = .busy ∧ BufferComplete s ∧ s.program = .answer (.fail 5) :: [] :=
  ⟨rgbBusy_inv.withProgram _, rfl, ⟨_, rgbPixel_pixels⟩, rfl⟩

theorem witness_EncodeEmitsTheWholeFile :
    let s := { rgbPixel with program := opEncode :: (List.replicate 85 (.answer .accept) ++ []) }
    Ready s [0x0A, 0x14, 0x1E]
      ∧ s.program = opEncode :: (List.replicate s.outLen (.answer .accept) ++ []) := by
  refine ⟨⟨by decide, by decide, by decide, rgbPixel_pixels⟩, ?_⟩
  have : rgbPixel.outLen = 85 := by decide
  show _ = opEncode :: (List.replicate rgbPixel.outLen (.answer .accept) ++ [])
  rw [this]

theorem witness_SinkFailureLeavesAPrefix :
    let s := { rgbPixel with
      program := opEncode :: (List.replicate 30 (.answer .accept) ++ .answer (.fail 5) :: []) }
    Ready s [0x0A, 0x14, 0x1E] ∧ 30 < s.outLen
      ∧ s.program = opEncode :: (List.replicate 30 (.answer .accept) ++ .answer (.fail 5) :: []) :=
  ⟨⟨by decide, by decide, by decide, rgbPixel_pixels⟩, by decide, rfl⟩

/-- Two histories: after reset, and after a failed command with other internal registers. -/
theorem witness_OutputDependsOnTheInputsAlone :
    let p := opEncode :: List.replicate 1 (.answer .accept)
    let s := { rgbPixel with program := p }
    let t := { rgbPixel.accept.startEmission.raiseError .sinkFailure 9 with program := p, sink := [7] }
    Ready s [0x0A, 0x14, 0x1E] ∧ Ready t [0x0A, 0x14, 0x1E] ∧ SameConfig s t ∧ 1 ≤ s.outLen
      ∧ (nextState (runFor 2 s)).isSome ∧ (nextState (runFor 2 t)).isSome :=
  ⟨⟨by decide, by decide, by decide, rgbPixel_pixels⟩,
    ⟨by decide, by decide, by decide, rgbPixel_pixels⟩, ⟨rfl, rfl, rfl, rfl, rfl⟩,
    by decide, by decide, by decide⟩

theorem witness_InternalRegistersAreUnobservable :
    let t := { rgbPixel with crc := 1, row := 5, blkRem := 9 }
    rgbPixel.phase ≠ .busy ∧ rgbPixel.visible = t.visible ∧ rgbPixel ≠ t := by decide

theorem witness_CompleteBufferNeverFaults :
    Inv rgbBusy ∧ (rgbBusy.phase = .busy → BufferComplete rgbBusy) :=
  ⟨rgbBusy_inv, fun _ => ⟨_, rgbPixel_pixels⟩⟩

theorem witness_ConsumerReadsThePixelsBack :
    Params.core.Admissible
      ∧ [(0x0A : Byte), 0x14, 0x1E].length
        = (1 : Word).toNat * (1 : Word).toNat * ColorFormat.rgb.channels
      ∧ streamSize (framedLen .rgb (1 : Word).toNat (1 : Word).toNat)
        ≤ Params.core.maxChunkLen.toNat := by decide

end Sys2Proof.Tests
end

/-! PROOFS. The closed form of OUT byte by byte: rows, blocks and chunks where 42 to 45 place them. -/

namespace Sys2Proof.Machine

/-! ## Byte sequences -/

theorem getElem?_eq_byteOf {bs : List Byte} {i : Nat} (h : i < bs.length) :
    bs[i]? = some (byteOf bs i) := by
  simp [byteOf, List.getD, List.getElem?_eq_getElem h]

theorem be32_length (v : Word) : (be32 v).length = 4 := rfl

theorem getElem?_append_at {α : Type} {a : List α} {n : Nat} (h : a.length = n) (b : List α)
    (i : Nat) : (a ++ b)[n + i]? = b[i]? := by
  rw [List.getElem?_append_right (by omega), h, Nat.add_sub_cancel_left]

/-! ## The FramedBuffer (R180, R183) -/

theorem stride_mul (f : ColorFormat) (w h : Nat) : h * stride f w = pixelBytes f w h := by
  simp only [stride, pixelBytes]; ring

/-- A framed row has its tag and `stride` bytes (R182). -/
theorem frame_row_length {pixels : List Byte} {st h r : Nat} (hp : pixels.length = h * st)
    (hr : r < h) : (tagByte :: (pixels.drop (r * st)).take st).length = st + 1 := by
  have : (r + 1) * st ≤ h * st := Nat.mul_le_mul_right _ hr
  simp only [List.length_cons, List.length_take, List.length_drop, hp]
  rw [Nat.add_mul] at this
  omega

theorem frame_length {pixels : List Byte} {f : ColorFormat} {w h : Nat}
    (hp : pixels.length = pixelBytes f w h) : (frame pixels f w h).length = framedLen f w h := by
  rw [← stride_mul] at hp
  rw [frame, length_flatMap_of_const _ _ (stride f w + 1), List.length_range, framedLen]
  intro r hr
  exact frame_row_length hp (List.mem_range.1 hr)

/-- `fbyte` is random access into the FramedBuffer (R183). -/
theorem fbyte_eq_frame {m : List Host.Cell} {f : ColorFormat} {w h k : Nat} {pixels : List Byte}
    (hb : pixelBuffer m (pixelBytes f w h) = some pixels) (hk : k < framedLen f w h) :
    fbyte m (stride f w) k = (frame pixels f w h)[k]? := by
  obtain ⟨hl, hread⟩ := pixelBuffer_read hb
  rw [← stride_mul] at hl hread
  have hr : k / (stride f w + 1) < h := Nat.div_lt_of_lt_mul (by rwa [Nat.mul_comm])
  have hc : k % (stride f w + 1) < stride f w + 1 := Nat.mod_lt _ (by omega)
  rw [frame, getElem?_flatMap_range (fun r hr => frame_row_length hl hr) k hk, fbyte]
  generalize k / (stride f w + 1) = r at *
  match k % (stride f w + 1), hc with
  | 0, _ => rfl
  | j + 1, hc =>
    have : (r + 1) * stride f w ≤ h * stride f w := Nat.mul_le_mul_right _ hr
    rw [Nat.add_mul] at this
    rw [List.getElem?_cons_succ, List.getElem?_take_of_lt (by omega), List.getElem?_drop,
      framedByte, if_neg (by omega), framedAddr, hread _ (by omega), Nat.add_sub_cancel]

/-! ## The StoredStream (R200, R215) -/

theorem blockHeader_length (final : Bool) (len : BitVec 16) : (blockHeader final len).length = 5 :=
  rfl

/-- The byte a slot of the StoredStream holds (R215). -/
def streamByte (p : Params) (framed : List Byte) : StreamSlot → Option Byte
  | .zhdr i => [p.cmf, p.flg][i]?
  | .nonfinal _ i => (blockHeader false 65535)[i]?
  | .final i => (blockHeader true (BitVec.ofNat 16 (lastBlock framed.length)))[i]?
  | .data b i => framed[b * 65535 + i]?
  | .trailer i => (be32 (adler32 framed))[i]?

/-- A full block with its header takes 65540 bytes (R203). -/
theorem fullBlock_record_length {framed : List Byte} {b : Nat} (hb : b < fullBlocks framed.length) :
    (blockHeader false 65535 ++ fullBlock framed b).length = 65540 := by
  simp only [fullBlocks] at hb
  simp only [List.length_append, blockHeader_length, fullBlock, List.length_take, List.length_drop]
  omega

theorem fullBlock_records_length (framed : List Byte) :
    ((List.range (fullBlocks framed.length)).flatMap
      fun i => blockHeader false 65535 ++ fullBlock framed i).length
      = 65540 * fullBlocks framed.length := by
  rw [length_flatMap_of_const _ _ 65540, List.length_range, Nat.mul_comm]
  exact fun b hb => fullBlock_record_length (List.mem_range.1 hb)

theorem lastBlock_payload_length (framed : List Byte) :
    (framed.drop (fullBlocks framed.length * 65535)).length = lastBlock framed.length := by
  have := fullBlocks_add_lastBlock framed.length
  rw [List.length_drop]; omega

theorem pack_length (p : Params) (framed : List Byte) :
    (pack p framed).length = streamSize framed.length := by
  simp only [pack, List.length_append, fullBlock_records_length, lastBlock_payload_length,
    blockHeader_length, be32_length, streamSize_eq_blocks, List.length_cons, List.length_nil]
  omega

theorem getElem?_fullBlock {framed : List Byte} {b i : Nat} (hi : i < 65535) :
    (fullBlock framed b)[i]? = framed[b * 65535 + i]? := by
  rw [fullBlock, List.getElem?_take_of_lt hi, List.getElem?_drop]

/-- Byte `i` of full block `b` with its header stands 65540 bytes after that of the block before. -/
theorem getElem?_fullBlock_records {framed : List Byte} {b i : Nat}
    (hb : b < fullBlocks framed.length) (hi : i < 65540) :
    ((List.range (fullBlocks framed.length)).flatMap
      fun i => blockHeader false 65535 ++ fullBlock framed i)[65540 * b + i]?
      = (blockHeader false 65535 ++ fullBlock framed b)[i]? := by
  rw [getElem?_flatMap_range (c := 65540) (fun r hr => fullBlock_record_length hr) _ (by omega),
    show (65540 * b + i) / 65540 = b by omega, show (65540 * b + i) % 65540 = i by omega]

/-- Each byte of the StoredStream is the one its slot holds (R215). -/
theorem pack_getElem? (p : Params) (framed : List Byte) {o : Nat}
    (ho : o < streamSize framed.length) :
    (pack p framed)[o]? = streamByte p framed (streamSlot framed.length o) := by
  have hZ : [p.cmf, p.flg].length = 2 := rfl
  have hB := fullBlock_records_length framed
  have hL := lastBlock_payload_length framed
  simp only [pack, List.append_assoc]
  rcases stream_offset_cases ho with h | ⟨b, i, hb, hi, rfl⟩ | ⟨b, i, hb, hi, rfl⟩ | ⟨i, hi, rfl⟩
    | ⟨i, hi, rfl⟩ | ⟨i, hi, rfl⟩
  · rw [streamSlot_zhdr h, List.getElem?_append_left (by simpa using h)]
    rfl
  · rw [streamSlot_nonfinal hb hi, Nat.add_assoc, getElem?_append_at hZ,
      List.getElem?_append_left (by omega), getElem?_fullBlock_records hb (by omega),
      List.getElem?_append_left hi]
    rfl
  · rw [streamSlot_data_full hb hi, show 7 + 65540 * b + i = 2 + (65540 * b + (5 + i)) by omega,
      getElem?_append_at hZ, List.getElem?_append_left (by omega),
      getElem?_fullBlock_records hb (by omega), getElem?_append_at (blockHeader_length _ _),
      getElem?_fullBlock hi]
    rfl
  · rw [streamSlot_final hi, Nat.add_assoc, getElem?_append_at hZ, getElem?_append_at hB,
      List.getElem?_append_left hi]
    rfl
  · rw [streamSlot_data_last hi,
      show 7 + 65540 * fullBlocks framed.length + i
        = 2 + (65540 * fullBlocks framed.length + (5 + i)) by omega,
      getElem?_append_at hZ, getElem?_append_at hB, getElem?_append_at (blockHeader_length _ _),
      List.getElem?_append_left (by omega), List.getElem?_drop]
    rfl
  · rw [streamSlot_trailer,
      show 7 + 65540 * fullBlocks framed.length + lastBlock framed.length + i
        = 2 + (65540 * fullBlocks framed.length + (5 + (lastBlock framed.length + i))) by omega,
      getElem?_append_at hZ, getElem?_append_at hB, getElem?_append_at (blockHeader_length _ _),
      getElem?_append_at hL]
    rfl

/-! ## The chunks of OUT (R245, R279, R281) -/

/-- A chunk's type tag (R98). -/
def chunkTag : Chunk → List Byte
  | .ihdr => tagIHDR
  | .idat => tagIDAT
  | .srgb => tagSRGB
  | .iend => tagIEND

/-- A chunk's payload for a pixel buffer (R273 to R277). -/
def State.chunkPayload (s : State) (pixels : List Byte) : Chunk → List Byte
  | .ihdr => ihdr s.sel s.width s.height
  | .idat => pack s.params (s.frame pixels)
  | .srgb => srgbPayload
  | .iend => []

theorem chunkTag_length (c : Chunk) : (chunkTag c).length = 4 := by cases c <;> rfl

theorem State.frame_length {s : State} {pixels : List Byte}
    (hp : pixels.length = pixelBytes s.sel s.width.toNat s.height.toNat) :
    (s.frame pixels).length = s.framedLen := Machine.frame_length hp

theorem State.chunkPayload_length {s : State} {pixels : List Byte}
    (hp : pixels.length = pixelBytes s.sel s.width.toNat s.height.toNat) (c : Chunk) :
    (s.chunkPayload pixels c).length = chunkLen (Machine.streamSize s.framedLen) c := by
  cases c with
  | idat => rw [chunkPayload, pack_length, State.frame_length hp]; rfl
  | ihdr | srgb | iend => rfl

theorem chunk_length (c : Chunk) (payload : List Byte) :
    (chunk (chunkTag c) payload).length = 12 + payload.length := by
  simp only [chunk, List.length_append, chunkTag_length, be32_length]
  omega

/-- Each byte of a chunk is the one the serializer makes when its CRC register has absorbed type and
payload (R246 to R249). -/
theorem chunk_getElem? (c : Chunk) (payload : List Byte) {j : Nat} (hj : j < 12 + payload.length) :
    (chunk (chunkTag c) payload)[j]? = some (fieldByte (chunkTag c) payload.length (byteOf payload)
      (crcRun (chunkTag c ++ payload)) j) := by
  have ht := chunkTag_length c
  simp only [chunk, List.append_assoc, fieldByte]
  rcases chunk_offset_cases hj with h | ⟨i, hi, rfl⟩ | ⟨i, hi, rfl⟩ | ⟨i, hi, rfl⟩
  · rw [List.getElem?_append_left h, if_pos h, getElem?_eq_byteOf h]
  · rw [getElem?_append_at (be32_length _), List.getElem?_append_left (by omega), if_neg (by omega),
      if_pos (by omega), Nat.add_sub_cancel_left, getElem?_eq_byteOf (by omega)]
  · rw [show 8 + i = 4 + (4 + i) by omega, getElem?_append_at (be32_length _), getElem?_append_at ht,
      List.getElem?_append_left hi, if_neg (by omega), if_neg (by omega), if_pos (by omega),
      getElem?_eq_byteOf hi]
    congr 2; omega
  · rw [show 8 + payload.length + i = 4 + (4 + (payload.length + i)) by omega,
      getElem?_append_at (be32_length _), getElem?_append_at ht, getElem?_append_at rfl, if_neg (by omega),
      if_neg (by omega), if_neg (by omega), getElem?_eq_byteOf hi]
    congr 2; omega

/-- A chunk of OUT with its length, type and CRC. -/
def State.chunkBytes (s : State) (pixels : List Byte) (c : Chunk) : List Byte :=
  chunk (chunkTag c) (s.chunkPayload pixels c)

theorem State.chunkBytes_length {s : State} {pixels : List Byte}
    (hp : pixels.length = pixelBytes s.sel s.width.toNat s.height.toNat) (c : Chunk) :
    (s.chunkBytes pixels c).length = 12 + chunkLen (Machine.streamSize s.framedLen) c := by
  rw [chunkBytes, chunk_length, chunkPayload_length hp]

/-- The two chunks between IHDR and IEND, by CHUNK_ORDER (R278). -/
def middleChunks : ChunkOrder → Chunk × Chunk
  | .idatFirst => (.idat, .srgb)
  | .srgbFirst => (.srgb, .idat)

theorem State.out_eq_chunks (s : State) (pixels : List Byte) :
    s.out pixels = sigBytes ++ (s.chunkBytes pixels .ihdr
      ++ (s.chunkBytes pixels (middleChunks s.params.order).1
        ++ (s.chunkBytes pixels (middleChunks s.params.order).2 ++ s.chunkBytes pixels .iend))) := by
  simp only [State.out, Machine.out, List.append_assoc]
  cases s.params.order <;> simp only [List.append_assoc] <;> rfl

theorem State.out_length {s : State} {pixels : List Byte}
    (hp : pixels.length = pixelBytes s.sel s.width.toNat s.height.toNat) :
    (s.out pixels).length = s.outLen := by
  simp only [out_eq_chunks, List.length_append, chunkBytes_length hp]
  cases s.params.order <;>
    simp only [middleChunks, chunkLen, sigBytes, List.length_cons, List.length_nil, State.outLen,
      State.streamSize] <;> omega

/-- OUT holds each chunk at the offset R281 gives it. -/
theorem State.out_split {s : State} {pixels : List Byte}
    (hp : pixels.length = pixelBytes s.sel s.width.toNat s.height.toNat) (c : Chunk) :
    ∃ pre post, s.out pixels = pre ++ (s.chunkBytes pixels c ++ post)
      ∧ pre.length = chunkStart s.params.order (Machine.streamSize s.framedLen) c := by
  have hlen := State.chunkBytes_length hp
  have hout := s.out_eq_chunks pixels
  have first : ∃ pre post, s.out pixels
        = pre ++ (s.chunkBytes pixels (middleChunks s.params.order).1 ++ post)
      ∧ pre.length = 33 := by
    refine ⟨sigBytes ++ s.chunkBytes pixels .ihdr, _, by rw [hout, List.append_assoc], ?_⟩
    rw [List.length_append, hlen]; rfl
  have second : ∃ pre post, s.out pixels
        = pre ++ (s.chunkBytes pixels (middleChunks s.params.order).2 ++ post)
      ∧ pre.length = 45 + chunkLen (Machine.streamSize s.framedLen) (middleChunks s.params.order).1 := by
    refine ⟨sigBytes ++ (s.chunkBytes pixels .ihdr
      ++ s.chunkBytes pixels (middleChunks s.params.order).1), _, by
        rw [hout]; simp only [List.append_assoc]; rfl, ?_⟩
    simp only [List.length_append, hlen, sigBytes, List.length_cons, List.length_nil, chunkLen]
    omega
  cases c with
  | ihdr => exact ⟨sigBytes, _, hout, rfl⟩
  | idat =>
    cases ho : s.params.order with
    | idatFirst => simpa [ho, middleChunks, chunkStart, idatStart] using first
    | srgbFirst => simpa [ho, middleChunks, chunkStart, idatStart, chunkLen] using second
  | srgb =>
    cases ho : s.params.order with
    | idatFirst => simpa [ho, middleChunks, chunkStart, srgbStart, chunkLen] using second
    | srgbFirst => simpa [ho, middleChunks, chunkStart, srgbStart] using first
  | iend =>
    refine ⟨sigBytes ++ (s.chunkBytes pixels .ihdr
      ++ (s.chunkBytes pixels (middleChunks s.params.order).1
        ++ s.chunkBytes pixels (middleChunks s.params.order).2)), [], by
        rw [hout]; simp only [List.append_assoc, List.append_nil], ?_⟩
    simp only [List.length_append, hlen]
    cases s.params.order <;>
      simp only [middleChunks, chunkLen, chunkStart, sigBytes, List.length_cons, List.length_nil] <;>
      omega

/-- Each byte of a chunk in OUT. -/
theorem State.out_getElem?_chunk {s : State} {pixels : List Byte}
    (hp : pixels.length = pixelBytes s.sel s.width.toNat s.height.toNat) (c : Chunk) {j : Nat}
    (hj : j < 12 + chunkLen (Machine.streamSize s.framedLen) c) :
    (s.out pixels)[chunkStart s.params.order (Machine.streamSize s.framedLen) c + j]?
      = (s.chunkBytes pixels c)[j]? := by
  obtain ⟨pre, post, hout, hpre⟩ := State.out_split hp c
  rw [hout, getElem?_append_at hpre, List.getElem?_append_left (by rwa [chunkBytes_length hp])]

/-- The type and payload bytes of a chunk in OUT, up to `i` of them: what its CRC absorbs (R247). -/
theorem State.out_take_drop_chunk {s : State} {pixels : List Byte}
    (hp : pixels.length = pixelBytes s.sel s.width.toNat s.height.toNat) (c : Chunk) {i : Nat}
    (hi : i ≤ 4 + chunkLen (Machine.streamSize s.framedLen) c) :
    ((s.out pixels).take
        (chunkStart s.params.order (Machine.streamSize s.framedLen) c + 4 + i)).drop
        (chunkStart s.params.order (Machine.streamSize s.framedLen) c + 4)
      = (chunkTag c ++ s.chunkPayload pixels c).take i := by
  obtain ⟨pre, post, hout, hpre⟩ := State.out_split hp c
  rw [hout, ← hpre, List.drop_take, Nat.add_sub_cancel_left, ← List.drop_drop, List.drop_left,
    chunkBytes, chunk]
  simp only [List.append_assoc]
  rw [List.drop_left' (be32_length _), ← List.append_assoc, List.take_append_of_le_length]
  rwa [List.length_append, chunkTag_length, chunkPayload_length hp]

end Sys2Proof.Machine

/-! PROOFS. Where the streaming units stand at each offset of OUT: the stored blocks and the CRC. -/

namespace Sys2Proof.Machine

/-! ## Positions in the StoredStream (R205, R215) -/

/-- The payload length of stored block `b` (R202). -/
def blockLen (n b : Nat) : Nat := if b < fullBlocks n then 65535 else lastBlock n

/-- `(blkIdx, blkRem)` at stream offset `o`: `blockAt` inside the IDAT payload. -/
def streamBlock (n o : Nat) : Nat × Nat :=
  match streamSlot n o with
  | .zhdr _ => (0, 0)
  | .nonfinal b _ => (b, 0)
  | .data b i => (b, blockLen n b - i)
  | .final _ => (fullBlocks n, 0)
  | .trailer _ => (fullBlocks n, 0)

theorem blockLen_le (n b : Nat) : blockLen n b ≤ 65535 := by
  have := lastBlock_lt n
  unfold blockLen; split <;> omega

theorem blockLen_of_lt {n b : Nat} (h : b < fullBlocks n) : blockLen n b = 65535 := if_pos h

theorem blockLen_last (n : Nat) : blockLen n (fullBlocks n) = lastBlock n := if_neg (by omega)

/-- The slot of a block-header byte, non-final or terminal. -/
def headerSlot (n b i : Nat) : StreamSlot := if b < fullBlocks n then .nonfinal b i else .final i

theorem streamSlot_header {n b i : Nat} (hb : b ≤ fullBlocks n) (hi : i < 5) :
    streamSlot n (2 + 65540 * b + i) = headerSlot n b i := by
  unfold headerSlot
  split
  · exact streamSlot_nonfinal ‹_› hi
  · obtain rfl : b = fullBlocks n := by omega
    exact streamSlot_final hi

theorem streamSlot_data {n b i : Nat} (hb : b ≤ fullBlocks n) (hi : i < blockLen n b) :
    streamSlot n (7 + 65540 * b + i) = .data b i := by
  by_cases h : b < fullBlocks n
  · rw [blockLen_of_lt h] at hi
    exact streamSlot_data_full h hi
  · obtain rfl : b = fullBlocks n := by omega
    rw [blockLen_last] at hi
    exact streamSlot_data_last hi

/-- Every offset of the StoredStream, the terminal block taken as one of the blocks. -/
theorem stream_cases {n o : Nat} (ho : o < streamSize n) :
    o < 2
      ∨ (∃ b i, b ≤ fullBlocks n ∧ i < 5 ∧ o = 2 + 65540 * b + i)
      ∨ (∃ b i, b ≤ fullBlocks n ∧ i < blockLen n b ∧ o = 7 + 65540 * b + i)
      ∨ (∃ i, i < 4 ∧ o = 7 + 65540 * fullBlocks n + lastBlock n + i) := by
  rcases stream_offset_cases ho with h | ⟨b, i, hb, hi, rfl⟩ | ⟨b, i, hb, hi, rfl⟩ | ⟨i, hi, rfl⟩
    | ⟨i, hi, rfl⟩ | ⟨i, hi, rfl⟩
  · exact .inl h
  · exact .inr (.inl ⟨b, i, hb.le, hi, rfl⟩)
  · exact .inr (.inr (.inl ⟨b, i, hb.le, by rwa [blockLen_of_lt hb], rfl⟩))
  · exact .inr (.inl ⟨_, i, le_rfl, hi, rfl⟩)
  · exact .inr (.inr (.inl ⟨_, i, le_rfl, by rwa [blockLen_last], rfl⟩))
  · exact .inr (.inr (.inr ⟨i, hi, rfl⟩))

/-- The framer and block positions at stream offset `o`. -/
structure StreamPosition (n o framed : Nat) (block : Nat × Nat) : Prop where
  framed : framedBefore n o = framed
  block : streamBlock n o = block

theorem streamPosition_zhdr {n o : Nat} (h : o < 2) : StreamPosition n o 0 (0, 0) := by
  constructor <;> simp only [framedBefore, streamBlock, streamSlot_zhdr h]

theorem streamPosition_header {n b i : Nat} (hb : b ≤ fullBlocks n) (hi : i < 5) :
    StreamPosition n (2 + 65540 * b + i) (b * 65535) (b, 0) := by
  by_cases h : b < fullBlocks n
  · constructor <;> simp only [framedBefore, streamBlock, streamSlot_nonfinal h hi]
  · obtain rfl : b = fullBlocks n := by omega
    constructor <;> simp only [framedBefore, streamBlock, streamSlot_final hi]

theorem streamPosition_trailer (n i : Nat) :
    StreamPosition n (7 + 65540 * fullBlocks n + lastBlock n + i) n (fullBlocks n, 0) := by
  constructor <;> simp only [framedBefore, streamBlock, streamSlot_trailer]

/-- Before byte `i` of block `b`'s payload, and behind its last one: then blkIdx has moved on if another
block follows (log 9). -/
theorem streamPosition_data {n b i : Nat} (hb : b ≤ fullBlocks n) (hi : i ≤ blockLen n b) :
    StreamPosition n (7 + 65540 * b + i) (b * 65535 + i)
      (if i = blockLen n b ∧ b < fullBlocks n then b + 1 else b, blockLen n b - i) := by
  by_cases hlt : i < blockLen n b
  · rw [if_neg (by omega)]
    constructor <;> simp only [framedBefore, streamBlock, streamSlot_data hb hlt]
  · obtain rfl : i = blockLen n b := by omega
    by_cases h : b < fullBlocks n
    · rw [if_pos ⟨rfl, h⟩, Nat.sub_self, blockLen_of_lt h]
      convert streamPosition_header (n := n) (b := b + 1) (i := 0) h (by omega) using 1 <;> omega
    · obtain rfl : b = fullBlocks n := by omega
      rw [if_neg (by omega), Nat.sub_self, blockLen_last, fullBlocks_add_lastBlock]
      exact streamPosition_trailer n 0

/-! ## Positions in OUT (R281) -/

theorem framedAt_stream (order : ChunkOrder) (n o : Nat) :
    framedAt order n (idatStart order + 8 + o) = framedBefore n o := by
  rw [framedAt, if_neg (by omega), Nat.add_sub_cancel_left]

theorem blockAt_stream (order : ChunkOrder) (n o : Nat) :
    blockAt order n (idatStart order + 8 + o) = streamBlock n o := by
  rw [blockAt, if_neg (by omega), Nat.add_sub_cancel_left]
  rfl

theorem framedAt_before {order : ChunkOrder} {n k : Nat} (h : k ≤ idatStart order + 8) :
    framedAt order n k = 0 ∧ blockAt order n k = (0, 0) := by
  by_cases hk : k < idatStart order + 8
  · exact ⟨if_pos hk, if_pos hk⟩
  · obtain rfl : k = idatStart order + 8 + 0 := by omega
    have := streamPosition_zhdr (n := n) (o := 0) (by omega)
    rw [framedAt_stream, blockAt_stream]
    exact ⟨this.framed, this.block⟩

theorem framedAt_after {order : ChunkOrder} {n k : Nat}
    (h : idatStart order + 8 + streamSize n ≤ k) :
    framedAt order n k = n ∧ blockAt order n k = (fullBlocks n, 0) := by
  rw [streamSize_eq_blocks] at h
  obtain ⟨i, rfl⟩ : ∃ i, k = idatStart order + 8
      + (7 + 65540 * fullBlocks n + lastBlock n + i) :=
    ⟨k - (idatStart order + 8 + (7 + 65540 * fullBlocks n + lastBlock n)), by omega⟩
  rw [framedAt_stream, blockAt_stream]
  exact ⟨(streamPosition_trailer n i).framed, (streamPosition_trailer n i).block⟩

/-- Outside the StoredStream the packager does not move. -/
theorem position_outside_stream {order : ChunkOrder} {n k : Nat}
    (h : k + 1 ≤ idatStart order + 8 ∨ idatStart order + 8 + streamSize n ≤ k) :
    framedAt order n (k + 1) = framedAt order n k ∧ blockAt order n (k + 1) = blockAt order n k := by
  rcases h with h | h
  · obtain ⟨hf, hb⟩ := framedAt_before (n := n) h
    obtain ⟨hf', hb'⟩ := framedAt_before (n := n) (Nat.le_of_succ_le h)
    exact ⟨hf.trans hf'.symm, hb.trans hb'.symm⟩
  · obtain ⟨hf, hb⟩ := framedAt_after (Nat.le_succ_of_le h)
    obtain ⟨hf', hb'⟩ := framedAt_after h
    exact ⟨hf.trans hf'.symm, hb.trans hb'.symm⟩

/-- The slot of offset `j` of a chunk (R282). -/
def chunkSlot (n : Nat) (c : Chunk) (j : Nat) : Slot :=
  match c, chunkField (chunkLen (streamSize n) c) j with
  | .idat, .payload o => .stream (streamSlot n o)
  | c, f => .chunk c f

theorem slotAt_chunk {order : ChunkOrder} {n j : Nat} {c : Chunk}
    (hj : j < 12 + chunkLen (streamSize n) c) :
    slotAt order n (chunkStart order (streamSize n) c + j) = chunkSlot n c j := by
  cases c with
  | ihdr => exact slotAt_ihdr hj
  | idat =>
    rw [chunkStart, slotAt_idat hj, idatSlot]
    unfold chunkSlot chunkLen
    cases chunkField (streamSize n) j <;> rfl
  | srgb => exact slotAt_srgb hj
  | iend => exact slotAt_iend hj

/-- Every offset of OUT stands in the signature or in a chunk. -/
theorem out_chunk_cases (order : ChunkOrder) {n k : Nat} (hk : k < 70 + streamSize n) :
    k < 8 ∨ ∃ c j, j < 12 + chunkLen (streamSize n) c ∧ k = chunkStart order (streamSize n) c + j := by
  rcases out_offset_cases order hk with h | ⟨j, hj, rfl⟩ | ⟨j, hj, rfl⟩ | ⟨j, hj, rfl⟩ | ⟨j, hj, rfl⟩
  · exact .inl h
  · exact .inr ⟨.ihdr, j, hj, rfl⟩
  · exact .inr ⟨.idat, j, hj, rfl⟩
  · exact .inr ⟨.srgb, j, hj, rfl⟩
  · exact .inr ⟨.iend, j, hj, rfl⟩

/-- A byte of a chunk is an IDAT payload byte, or it stands outside the StoredStream. -/
theorem chunkSlot_cases (order : ChunkOrder) {n j : Nat} {c : Chunk}
    (hj : j < 12 + chunkLen (streamSize n) c) :
    (c = .idat ∧ ∃ o, o < streamSize n ∧ j = 8 + o ∧ chunkSlot n c j = .stream (streamSlot n o))
    ∨ (chunkSlot n c j = .chunk c (chunkField (chunkLen (streamSize n) c) j)
      ∧ (c = .idat → j < 8 ∨ 8 + streamSize n ≤ j)
      ∧ (chunkStart order (streamSize n) c + j + 1 ≤ idatStart order + 8
        ∨ idatStart order + 8 + streamSize n ≤ chunkStart order (streamSize n) c + j)) := by
  cases c with
  | idat =>
    simp only [chunkLen] at hj
    rcases chunk_offset_cases hj with h | ⟨i, hi, rfl⟩ | ⟨o, ho, rfl⟩ | ⟨i, hi, rfl⟩
    · refine .inr ⟨by simp only [chunkSlot, chunkLen, chunkField_length h], ?_, ?_⟩ <;>
        simp only [chunkStart] <;> omega
    · refine .inr ⟨by simp only [chunkSlot, chunkLen, chunkField_type hi], ?_, ?_⟩ <;>
        simp only [chunkStart] <;> omega
    · exact .inl ⟨rfl, o, ho, rfl, by simp only [chunkSlot, chunkLen, chunkField_payload ho]⟩
    · refine .inr ⟨by simp only [chunkSlot, chunkLen, chunkField_crc], ?_, ?_⟩ <;>
        simp only [chunkStart] <;> omega
  | ihdr | srgb | iend =>
    refine .inr ⟨rfl, nofun, ?_⟩
    cases order <;> simp only [chunkStart, chunkLen, idatStart, srgbStart] at * <;> omega

/-! ## The stretch under the CRC (R240, R247) -/

theorem crcSpan_signature {order : ChunkOrder} {n k : Nat} (h : k < 8) :
    crcSpan order n k = none := by
  simp only [crcSpan, slotAt_signature h]

/-- Inside a chunk the CRC has absorbed the type and payload bytes before `j`. -/
theorem crcSpan_chunk {order : ChunkOrder} {n j : Nat} {c : Chunk}
    (hj : j < 12 + chunkLen (streamSize n) c) :
    crcSpan order n (chunkStart order (streamSize n) c + j)
      = if j ≤ 4 then none
        else some (chunkStart order (streamSize n) c + 4,
          min (chunkStart order (streamSize n) c + j)
            (chunkStart order (streamSize n) c + 8 + chunkLen (streamSize n) c)) := by
  simp only [crcSpan, slotAt_chunk hj, chunkSlot]
  rcases chunk_offset_cases hj with h | ⟨i, hi, rfl⟩ | ⟨o, ho, rfl⟩ | ⟨i, hi, rfl⟩
  · simp [chunkField_length h, show j ≤ 4 by omega]
  · simp [chunkField_type hi]
  · cases c <;> simp [chunkField_payload ho, show ¬ 8 + o ≤ 4 by omega]
  · simp [chunkField_crc, show ¬ 8 + chunkLen (streamSize n) c + i ≤ 4 by omega]

/-- Behind a chunk the next one, or the end of OUT, has absorbed nothing. -/
theorem crcSpan_chunk_end (order : ChunkOrder) (n : Nat) (c : Chunk) :
    crcSpan order n (chunkStart order (streamSize n) c + (12 + chunkLen (streamSize n) c)) = none := by
  have next : ∀ (d : Chunk) (k : Nat), k = chunkStart order (streamSize n) d + 0 →
      crcSpan order n k = none := by
    rintro d _ rfl
    rw [crcSpan_chunk (by omega), if_pos (by omega)]
  cases c with
  | ihdr =>
    cases order with
    | idatFirst => exact next .idat _ rfl
    | srgbFirst => exact next .srgb _ rfl
  | idat =>
    cases order with
    | idatFirst => exact next .srgb _ (by simp only [chunkStart, chunkLen, idatStart, srgbStart]; omega)
    | srgbFirst => exact next .iend _ (by simp only [chunkStart, chunkLen, idatStart]; omega)
  | srgb =>
    cases order with
    | idatFirst => exact next .iend _ (by simp only [chunkStart, chunkLen, srgbStart]; omega)
    | srgbFirst => exact next .idat _ rfl
  | iend =>
    simp only [crcSpan, chunkStart, chunkLen]
    rw [slotAt_past (by omega)]

end Sys2Proof.Machine

/-! PROOFS. The streaming units while an ENCODE runs: each accepted byte is the byte of OUT at OUTCNT,
and leaves the units where the closed form has them for the next offset (R283, R285). -/

namespace Sys2Proof.Machine

/-! ## The units' positions -/

/-- The packager's registers stand behind `framed` framed bytes, at the given block position. -/
structure Packing (s : State) (pixels : List Byte) (framed : Nat) (block : Nat × Nat) : Prop where
  fidx : s.fidx.toNat = framed
  row : s.row.toNat = framed / (s.stride + 1)
  col : s.col.toNat = framed % (s.stride + 1)
  adler : (s.adlerA, s.adlerB) = adlerSums ((s.frame pixels).take framed)
  block : (s.blkIdx.toNat, s.blkRem.toNat) = block

/-- `crc` is the CRC register's value at offset `k`: what `crcSpan` says it has absorbed. -/
def CrcAt (s : State) (pixels : List Byte) (k : Nat) (crc : Word) : Prop :=
  ∀ span, crcSpan s.params.order s.framedLen k = some span →
    crc = crcRun (((s.out pixels).take span.2).drop span.1)

/-- Every streaming unit stands where the closed form has it at offset `k` of OUT. -/
structure UnitsAt (s : State) (pixels : List Byte) (k : Nat) : Prop where
  packing : Packing s pixels (framedAt s.params.order s.framedLen k)
    (blockAt s.params.order s.framedLen k)
  crc : CrcAt s pixels k s.crc

theorem streaming_iff_unitsAt (s : State) (pixels : List Byte) :
    Streaming s pixels ↔ s.outcnt.toNat ≤ s.sink.length
      ∧ s.delivered = (s.out pixels).take s.outcnt.toNat ∧ UnitsAt s pixels s.outcnt.toNat := by
  constructor
  · intro h
    exact ⟨h.counted, h.delivered, ⟨h.fidx, h.fidx ▸ h.row, h.fidx ▸ h.col, h.fidx ▸ h.adler,
      h.block⟩, h.crc⟩
  · rintro ⟨hc, hd, hp, hcrc⟩
    exact ⟨hc, hd, hp.fidx, hp.fidx ▸ hp.row, hp.fidx ▸ hp.col, hp.fidx ▸ hp.adler, hcrc, hp.block⟩

theorem Packing.withCrc {s : State} {pixels : List Byte} {framed : Nat} {block : Nat × Nat}
    (h : Packing s pixels framed block) (c : Word) : Packing { s with crc := c } pixels framed block :=
  ⟨h.fidx, h.row, h.col, h.adler, h.block⟩

theorem Packing.withBlkRem {s : State} {pixels : List Byte} {framed idx rem : Nat}
    (h : Packing s pixels framed (idx, rem)) (m : BitVec 16) :
    Packing { s with blkRem := m } pixels framed (idx, m.toNat) :=
  ⟨h.fidx, h.row, h.col, h.adler, congrArg (·, m.toNat) (Prod.mk.inj h.block).1⟩

/-! ## The CRC unit across a chunk -/

/-- Inside a chunk, `CrcAt` speaks of the chunk's own type and payload bytes. -/
theorem crcAt_chunk_iff {s : State} {pixels : List Byte}
    (hp : pixels.length = pixelBytes s.sel s.width.toNat s.height.toNat) {c : Chunk} {j : Nat}
    {crc : Word} (hj : j < 12 + chunkLen (Machine.streamSize s.framedLen) c) :
    CrcAt s pixels (chunkStart s.params.order (Machine.streamSize s.framedLen) c + j) crc
      ↔ (4 < j → crc = crcRun ((chunkTag c ++ s.chunkPayload pixels c).take (j - 4))) := by
  have hl : (chunkTag c ++ s.chunkPayload pixels c).length
      = 4 + chunkLen (Machine.streamSize s.framedLen) c := by
    rw [List.length_append, chunkTag_length, State.chunkPayload_length hp]
  rw [CrcAt, crcSpan_chunk hj]
  by_cases h4 : j ≤ 4
  · simp [h4]
  · simp only [if_neg h4, Option.some.injEq, forall_eq', show 4 < j by omega, forall_const]
    have hmin : min (chunkStart s.params.order (Machine.streamSize s.framedLen) c + j)
        (chunkStart s.params.order (Machine.streamSize s.framedLen) c + 8
          + chunkLen (Machine.streamSize s.framedLen) c)
        = chunkStart s.params.order (Machine.streamSize s.framedLen) c + 4
          + min (j - 4) (4 + chunkLen (Machine.streamSize s.framedLen) c) := by omega
    rw [hmin, State.out_take_drop_chunk hp c (by omega), ← hl, ← List.take_eq_take_min]

/-- A type or payload byte of a chunk is a byte its CRC absorbs. -/
theorem State.chunkBytes_getElem?_covered (s : State) (pixels : List Byte) (c : Chunk) {i : Nat}
    (hi : i < 4 + (s.chunkPayload pixels c).length) :
    (s.chunkBytes pixels c)[4 + i]? = (chunkTag c ++ s.chunkPayload pixels c)[i]? := by
  rw [chunkBytes, chunk, List.append_assoc, List.append_assoc, getElem?_append_at (be32_length _),
    ← List.append_assoc, List.getElem?_append_left]
  rwa [List.length_append, chunkTag_length]

theorem take_succ_of_getElem? {α : Type} {l : List α} {i : Nat} {b : α} (h : l[i]? = some b) :
    l.take (i + 1) = l.take i ++ [b] := by
  rw [List.take_add_one, h]; rfl

/-- CRC_INIT, CRC_UPDATE and the bytes that leave the register alone keep `CrcAt` (R240, R242). -/
theorem CrcAt.next {s : State} {pixels : List Byte} {b : Byte} {c : Chunk} {j : Nat} {crc : Word}
    (hp : pixels.length = pixelBytes s.sel s.width.toNat s.height.toNat)
    (hj : j < 12 + chunkLen (Machine.streamSize s.framedLen) c)
    (h : CrcAt s pixels (chunkStart s.params.order (Machine.streamSize s.framedLen) c + j) crc)
    (hb : (s.chunkBytes pixels c)[j]? = some b) :
    CrcAt s pixels (chunkStart s.params.order (Machine.streamSize s.framedLen) c + j + 1)
      (chunkCrc (chunkLen (Machine.streamSize s.framedLen) c) j crc b) := by
  rw [crcAt_chunk_iff hp hj] at h
  have hl := State.chunkPayload_length hp c
  rw [Nat.add_assoc]
  by_cases hend : j + 1 = 12 + chunkLen (Machine.streamSize s.framedLen) c
  · rw [hend, CrcAt, crcSpan_chunk_end]
    exact nofun
  rw [crcAt_chunk_iff hp (by omega)]
  intro h4
  obtain ⟨i, rfl⟩ : ∃ i, j = 4 + i := ⟨j - 4, by omega⟩
  rw [show 4 + i + 1 - 4 = i + 1 by omega, chunkCrc, if_neg (by omega)]
  by_cases hin : i < 4 + chunkLen (Machine.streamSize s.framedLen) c
  · rw [State.chunkBytes_getElem?_covered _ _ _ (by omega)] at hb
    rw [take_succ_of_getElem? hb, crcRun_append]
    by_cases hi : i = 0
    · subst hi; rfl
    · rw [if_neg (by omega), if_pos (by omega), h (by omega), Nat.add_sub_cancel_left]
  · rw [if_neg (by omega), if_neg (by omega), h (by omega), Nat.add_sub_cancel_left,
      List.take_of_length_le, List.take_of_length_le] <;>
    rw [List.length_append, chunkTag_length] <;> omega

end Sys2Proof.Machine

/-! PROOFS. What the operation that owns OUTCNT emits, chunk by chunk and slot by slot (R282). -/

namespace Sys2Proof.Machine

/-! ## A byte of a chunk -/

/-- A chunk byte under any answer of the sink: `fieldByte` is offered, and accepting it moves the CRC
register as `chunkCrc` does. -/
theorem emitField_chunkField (tag : List Byte) (len : Nat) (payload : Nat → Byte) (j : Nat)
    (s : State) :
    ∃ adv, emitField tag len payload (chunkField len j) s
        = emit (fieldByte tag len payload s.crc j) adv s
      ∧ adv s = { s with crc := chunkCrc len j s.crc (fieldByte tag len payload s.crc j) } := by
  by_cases h1 : j < 4
  · simp only [chunkField, h1, if_true, emitField, fieldByte, chunkCrc]
    exact ⟨_, rfl, rfl⟩
  by_cases h2 : j < 8
  · simp only [chunkField, h1, h2, if_true, if_false, emitField, fieldByte, chunkCrc]
    refine ⟨_, rfl, ?_⟩
    by_cases h3 : j = 4
    · subst h3; rfl
    · rw [State.crcType, if_neg (by omega), if_neg h3, if_pos (by omega), State.crcAdvance_eq]
  by_cases h3 : j < 8 + len
  · simp only [chunkField, h1, h2, h3, if_true, if_false, emitField, fieldByte, chunkCrc,
      show ¬ j = 4 by omega]
    exact ⟨_, rfl, State.crcAdvance_eq _ s⟩
  · simp only [chunkField, h1, h2, h3, if_false, emitField, fieldByte, chunkCrc,
      show ¬ j = 4 by omega]
    exact ⟨_, rfl, rfl⟩

/-- The payload bytes the serializer makes itself; IDAT's come from the packager (R275). -/
def State.chunkSource (s : State) : Chunk → Nat → Byte
  | .ihdr => byteOf (ihdr s.sel s.width s.height)
  | .idat => fun _ => 0
  | .srgb => byteOf srgbPayload
  | .iend => fun _ => 0

/-- The operation that owns a chunk byte emits it by its field (R282). -/
theorem exec_of_chunk_slot {s : State} {i : Instr} {c : Chunk} {f : ChunkField}
    (hs : s.slot = .chunk c f) (ho : s.owner = some i) :
    exec i s = emitField (chunkTag c) (chunkLen (Machine.streamSize s.framedLen) c)
      (s.chunkSource c) f s := by
  rw [State.owner, hs] at ho
  cases c <;> obtain rfl := Option.some.inj ho
  · simp only [exec, execChunkIHDR, hs]; rfl
  · simp only [exec, execChunkIDAT, hs]; rfl
  · simp only [exec, execChunkSRGB, hs]; rfl
  · simp only [exec, execChunkIEND, hs]; rfl

/-- With the CRC register where `CrcAt` has it, the serializer's byte is the chunk's. -/
theorem State.chunkBytes_getElem?_eq_fieldByte {s : State} {pixels : List Byte} {c : Chunk} {j : Nat}
    (hp : pixels.length = pixelBytes s.sel s.width.toNat s.height.toNat)
    (hj : j < 12 + chunkLen (Machine.streamSize s.framedLen) c)
    (hcrc : CrcAt s pixels (chunkStart s.params.order (Machine.streamSize s.framedLen) c + j) s.crc)
    (hidat : c = .idat → j < 8 ∨ 8 + Machine.streamSize s.framedLen ≤ j) :
    (s.chunkBytes pixels c)[j]? = some (fieldByte (chunkTag c)
      (chunkLen (Machine.streamSize s.framedLen) c) (s.chunkSource c) s.crc j) := by
  have hl := chunkPayload_length hp c
  rw [crcAt_chunk_iff hp hj] at hcrc
  rw [chunkBytes, chunk_getElem? _ _ (by omega), hl]
  unfold fieldByte
  split
  · rfl
  split
  · rfl
  split
  · cases c with
    | idat =>
      have := hidat rfl
      simp only [chunkLen] at *
      omega
    | ihdr | srgb | iend => rfl
  · rw [hcrc (by omega), List.take_of_length_le]
    rw [List.length_append, chunkTag_length]; omega

/-! ## A byte of the StoredStream -/

/-- FRAMER_NEXT's row and column (R184), as quotient and remainder. -/
theorem row_col_next (f st : Nat) :
    (f + 1) / (st + 1) = (if f % (st + 1) = st then f / (st + 1) + 1 else f / (st + 1))
      ∧ (f + 1) % (st + 1) = (if f % (st + 1) = st then 0 else f % (st + 1) + 1) := by
  have hdm := Nat.div_add_mod f (st + 1)
  have hlt : f % (st + 1) < st + 1 := Nat.mod_lt _ (by omega)
  rw [Nat.div_mod_unique (by omega)]
  split
  · rw [Nat.mul_add]; omega
  · omega

/-- What a payload byte does to the packager's registers (R184, R205, R207, R212). -/
theorem Packing.dataAdvance {s : State} {pixels : List Byte} {f idx rem : Nat} {b : Byte}
    (h : Packing s pixels f (idx, rem)) (hf : f < s.framedLen) (hn : s.framedLen < 2 ^ 32)
    (hrem : 0 < rem) (hb : (s.frame pixels)[f]? = some b) :
    Packing (s.dataAdvance b) pixels (f + 1)
      (if rem = 1 ∧ idx < fullBlocks s.framedLen then idx + 1 else idx, rem - 1) := by
  obtain ⟨hfidx, hrow, hcol, hadler, hblock⟩ := h
  obtain ⟨hidx, hrem'⟩ := Prod.mk.inj hblock
  have hst := s.stride_lt
  have hlt : f % (s.stride + 1) < s.stride + 1 := Nat.mod_lt _ (by omega)
  have hr : f / (s.stride + 1) < s.height.toNat := Nat.div_lt_of_lt_mul (by rwa [Nat.mul_comm])
  have hh := s.height.isLt
  have hq : fullBlocks s.framedLen ≤ s.framedLen := Nat.div_le_self _ _
  obtain ⟨hdiv, hmod⟩ := row_col_next f s.stride
  rw [State.dataAdvance_eq]
  refine ⟨?_, ?_, ?_, ?_, ?_⟩
  · show (s.fidx + 1).toNat = _
    simp; omega
  · show (if _ then s.row + 1 else s.row).toNat = (f + 1) / (s.stride + 1)
    rw [hdiv, hcol]
    split
    · simp; omega
    · exact hrow
  · show (if _ then (0 : BitVec 34) else s.col + 1).toNat = (f + 1) % (s.stride + 1)
    rw [hmod, hcol]
    split
    · rfl
    · simp; omega
  · show _ = adlerSums ((s.frame pixels).take (f + 1))
    rw [take_succ_of_getElem? hb, adlerSums_append, ← hadler]
  · show ((if _ then s.blkIdx + 1 else s.blkIdx).toNat, (s.blkRem - 1).toNat) = _
    have hr1 : s.blkRem - 1 = 0 ↔ rem = 1 := by
      rw [← hrem', ← BitVec.toNat_inj]; simp; omega
    simp only [hr1, hidx]
    congr 1
    · split
      · simp; omega
      · exact hidx
    · simp; omega

/-- A payload offset of block `b` is an offset of the FramedBuffer (R202). -/
theorem blockPayload_lt {n b k : Nat} (hb : b ≤ fullBlocks n) (hk : k < blockLen n b) :
    b * 65535 + k < n := by
  have := fullBlocks_add_lastBlock n
  by_cases h : b < fullBlocks n
  · rw [blockLen_of_lt h] at hk; omega
  · obtain rfl : b = fullBlocks n := by omega
    rw [blockLen_last] at hk; omega

/-- SIZECHECK keeps the FramedBuffer below 2^32 bytes (R271, R304). -/
theorem Running.framedLen_lt {s : State} (h : Running s) : s.framedLen < 2 ^ 32 := by
  have hfits : Machine.streamSize s.framedLen ≤ s.params.maxChunkLen.toNat := h.fits
  have := s.params.maxChunkLen.isLt
  rw [streamSize_eq] at hfits
  omega

/-- What the operation at stream offset `o` has to do: offer the byte of its slot, and when it is
accepted move the CRC and the packager on to offset `o + 1` (R207, R215). -/
def EmitsStream (s : State) (pixels : List Byte) (i : Instr) (o : Nat) : Prop :=
  ∃ b adv, exec i s = emit b adv s
    ∧ streamByte s.params (s.frame pixels) (streamSlot s.framedLen o) = some b
    ∧ TouchesInternals s (adv s) ∧ (adv s).crc = crcUpdate s.crc b
    ∧ Packing (adv s) pixels (framedBefore s.framedLen (o + 1)) (streamBlock s.framedLen (o + 1))

/-- ZHDR (R201). -/
theorem emitsStream_zhdr {s : State} {pixels : List Byte} {i : Instr} {o : Nat} (ho : o < 2)
    (h : Packing s pixels (framedBefore s.framedLen o) (streamBlock s.framedLen o))
    (hs : s.slot = .stream (streamSlot s.framedLen o)) (hi : s.owner = some i) :
    EmitsStream s pixels i o := by
  rw [State.owner, hs, streamSlot_zhdr ho] at hi
  obtain rfl := Option.some.inj hi
  rw [streamSlot_zhdr ho] at hs
  obtain ⟨hf, hb⟩ := streamPosition_zhdr (n := s.framedLen) ho
  rw [hf, hb] at h
  have next : StreamPosition s.framedLen (o + 1) 0 (0, 0) := by
    by_cases h1 : o + 1 < 2
    · exact streamPosition_zhdr h1
    · obtain rfl : o = 1 := by omega
      simpa using streamPosition_header (n := s.framedLen) (b := 0) (i := 0) (by omega) (by omega)
  refine ⟨_, _, by simp only [exec, execZhdr, hs]; rfl, ?_, ?_, ?_, ?_⟩
  · rw [streamSlot_zhdr ho]
    exact getElem?_eq_byteOf ho
  · rw [State.crcAdvance_eq]; exact TouchesInternals.crc s _
  · rfl
  · rw [State.crcAdvance_eq, next.framed, next.block]
    exact h.withCrc _

/-- A block header, non-final or terminal, with the length it carries. -/
theorem exec_of_header_slot {s : State} {i : Instr} {b k : Nat} (hb : b ≤ fullBlocks s.framedLen)
    (hs : s.slot = .stream (headerSlot s.framedLen b k)) (hi : s.owner = some i) :
    exec i s = emitBlockHeader (decide (b = fullBlocks s.framedLen))
      (BitVec.ofNat 16 (blockLen s.framedLen b)) k s := by
  rw [State.owner, hs] at hi
  by_cases h : b < fullBlocks s.framedLen
  · rw [headerSlot, if_pos h] at hi hs
    obtain rfl := Option.some.inj hi
    simp only [exec, execBlkhdrNonfinal, hs, blockLen_of_lt h, decide_eq_false h.ne]
    rfl
  · obtain rfl : b = fullBlocks s.framedLen := by omega
    rw [headerSlot, if_neg h] at hi hs
    obtain rfl := Option.some.inj hi
    simp only [exec, execBlkhdrFinal, hs, blockLen_last, decide_true]

theorem streamByte_header (p : Params) (framed : List Byte) {b k : Nat}
    (hb : b ≤ fullBlocks framed.length) :
    streamByte p framed (headerSlot framed.length b k)
      = (blockHeader (decide (b = fullBlocks framed.length))
          (BitVec.ofNat 16 (blockLen framed.length b)))[k]? := by
  by_cases h : b < fullBlocks framed.length
  · rw [headerSlot, if_pos h, blockLen_of_lt h, decide_eq_false h.ne]; rfl
  · obtain rfl : b = fullBlocks framed.length := by omega
    rw [headerSlot, if_neg h, blockLen_last, decide_eq_true rfl]; rfl

/-- What a block-header byte changes: the CRC, and with the fifth byte blkRem (R205, log 9). -/
theorem State.headerAdvance_eq (s : State) (v : Byte) (k : Nat) (len : BitVec 16) :
    (s.crcAdvance v).loadBlock k len
      = { s with crc := crcUpdate s.crc v, blkRem := if k = 4 then len else s.blkRem } := by
  rw [State.loadBlock, State.crcAdvance_eq]
  split <;> rfl

/-- BLKHDR_NONFINAL and BLKHDR_FINAL (R203 to R205). -/
theorem emitsStream_header {s : State} {pixels : List Byte} {i : Instr} {b k : Nat}
    (hl : (s.frame pixels).length = s.framedLen) (hb : b ≤ fullBlocks s.framedLen) (hk : k < 5)
    (h : Packing s pixels (framedBefore s.framedLen (2 + 65540 * b + k))
      (streamBlock s.framedLen (2 + 65540 * b + k)))
    (hs : s.slot = .stream (streamSlot s.framedLen (2 + 65540 * b + k))) (hi : s.owner = some i) :
    EmitsStream s pixels i (2 + 65540 * b + k) := by
  have hslot := streamSlot_header hb hk
  have here := streamPosition_header hb hk
  rw [hslot] at hs
  rw [here.framed, here.block] at h
  have hexec := exec_of_header_slot hb hs hi
  unfold emitBlockHeader at hexec
  refine ⟨_, _, hexec, ?_, ?_, ?_, ?_⟩
  · rw [hslot, ← hl, streamByte_header _ _ (by rwa [hl])]
    exact getElem?_eq_byteOf hk
  · rw [State.headerAdvance_eq]
    exact TouchesInternals.header s _ _
  · rw [State.headerAdvance_eq]
  · rw [State.headerAdvance_eq]
    by_cases h4 : k = 4
    · subst h4
      have next := streamPosition_data hb (Nat.zero_le (blockLen s.framedLen b))
      have hlen := blockLen_le s.framedLen b
      have hfull : ¬ (0 = blockLen s.framedLen b ∧ b < fullBlocks s.framedLen) := fun ⟨h0, hlt⟩ => by
        rw [blockLen_of_lt hlt] at h0; omega
      rw [show 2 + 65540 * b + 4 + 1 = 7 + 65540 * b + 0 by omega, next.framed, next.block,
        if_neg hfull, Nat.add_zero, Nat.sub_zero]
      have hloaded := h.withBlkRem (BitVec.ofNat 16 (blockLen s.framedLen b))
      rw [BitVec.toNat_ofNat, Nat.mod_eq_of_lt (by omega)] at hloaded
      exact hloaded.withCrc _
    · have next := streamPosition_header hb (show k + 1 < 5 by omega)
      rw [if_neg h4, Nat.add_assoc, next.framed, next.block]
      exact h.withCrc _

/-- FRAMER_NEXT gives the framed byte the framer stands at (R183, R184). -/
theorem Packing.framerByte_eq {s : State} {pixels : List Byte} {f : Nat} {block : Nat × Nat}
    (h : Packing s pixels f block) (hbuf : s.pixels = some pixels) (hshape : s.ShapeMatches)
    (hf : f < s.framedLen) : s.framerByte = (s.frame pixels)[f]? := by
  rw [State.pixels, hshape] at hbuf
  rw [State.framerByte, h.row, h.col]
  exact fbyte_eq_frame hbuf hf

/-- PAYLOAD (R207): FRAMER_NEXT's byte, and every unit moves on. -/
theorem emitsStream_data {s : State} {pixels : List Byte} {i : Instr} {b k : Nat}
    (hl : (s.frame pixels).length = s.framedLen) (hbuf : s.pixels = some pixels) (hrun : Running s)
    (hb : b ≤ fullBlocks s.framedLen) (hk : k < blockLen s.framedLen b)
    (h : Packing s pixels (framedBefore s.framedLen (7 + 65540 * b + k))
      (streamBlock s.framedLen (7 + 65540 * b + k)))
    (hs : s.slot = .stream (streamSlot s.framedLen (7 + 65540 * b + k))) (hi : s.owner = some i) :
    EmitsStream s pixels i (7 + 65540 * b + k) := by
  have hslot := streamSlot_data hb hk
  have here := streamPosition_data hb hk.le
  have next := streamPosition_data hb (show k + 1 ≤ blockLen s.framedLen b from hk)
  rw [State.owner, hs, hslot] at hi
  obtain rfl := Option.some.inj hi
  rw [hslot] at hs
  rw [here.framed, here.block, if_neg (by omega)] at h
  have hlt : b * 65535 + k < s.framedLen := blockPayload_lt hb hk
  obtain ⟨v, hv⟩ : ∃ v, (s.frame pixels)[b * 65535 + k]? = some v :=
    ⟨_, List.getElem?_eq_getElem (by rwa [hl])⟩
  have hbyte := (h.framerByte_eq hbuf hrun.shape hlt).trans hv
  refine ⟨v, State.dataAdvance v, by simp only [exec, execChunkIDAT, hs, emitData, hbyte], ?_,
    TouchesInternals.data s v, ?_, ?_⟩
  · rw [hslot]
    exact hv
  · rw [State.dataAdvance_eq]
  · have hmoved := h.dataAdvance hlt hrun.framedLen_lt (by omega) hv
    have hlast : blockLen s.framedLen b - k = 1 ↔ k + 1 = blockLen s.framedLen b := by omega
    simp only [hlast, Nat.sub_sub] at hmoved
    rw [Nat.add_assoc, next.framed, next.block, ← Nat.add_assoc (b * 65535)]
    exact hmoved

/-- TRAILER (R209): the Adler sums have absorbed the whole FramedBuffer. -/
theorem emitsStream_trailer {s : State} {pixels : List Byte} {i : Instr} {k : Nat}
    (hl : (s.frame pixels).length = s.framedLen) (hk : k < 4)
    (h : Packing s pixels
      (framedBefore s.framedLen (7 + 65540 * fullBlocks s.framedLen + lastBlock s.framedLen + k))
      (streamBlock s.framedLen (7 + 65540 * fullBlocks s.framedLen + lastBlock s.framedLen + k)))
    (hs : s.slot = .stream
      (streamSlot s.framedLen (7 + 65540 * fullBlocks s.framedLen + lastBlock s.framedLen + k)))
    (hi : s.owner = some i) :
    EmitsStream s pixels i
      (7 + 65540 * fullBlocks s.framedLen + lastBlock s.framedLen + k) := by
  have hslot := streamSlot_trailer s.framedLen k
  have here := streamPosition_trailer s.framedLen k
  have next := streamPosition_trailer s.framedLen (k + 1)
  rw [State.owner, hs, hslot] at hi
  obtain rfl := Option.some.inj hi
  rw [hslot] at hs
  rw [here.framed, here.block] at h
  refine ⟨_, _, by simp only [exec, execChunkIDAT, hs]; rfl, ?_, ?_, ?_, ?_⟩
  · rw [hslot, h.adler, List.take_of_length_le hl.le]
    exact getElem?_eq_byteOf hk
  · rw [State.crcAdvance_eq]; exact TouchesInternals.crc s _
  · rfl
  · rw [State.crcAdvance_eq, Nat.add_assoc, next.framed, next.block]
    exact h.withCrc _

/-- Every operation of the StoredStream, at every offset of it (R215, R282). -/
theorem emitsStream {s : State} {pixels : List Byte} {i : Instr} {o : Nat}
    (hl : (s.frame pixels).length = s.framedLen) (hbuf : s.pixels = some pixels) (hrun : Running s)
    (ho : o < Machine.streamSize s.framedLen)
    (h : Packing s pixels (framedBefore s.framedLen o) (streamBlock s.framedLen o))
    (hs : s.slot = .stream (streamSlot s.framedLen o)) (hi : s.owner = some i) :
    EmitsStream s pixels i o := by
  rcases stream_cases ho with hz | ⟨b, k, hb, hk, rfl⟩ | ⟨b, k, hb, hk, rfl⟩ | ⟨k, hk, rfl⟩
  · exact emitsStream_zhdr hz h hs hi
  · exact emitsStream_header hl hb hk h hs hi
  · exact emitsStream_data hl hbuf hrun hb hk h hs hi
  · exact emitsStream_trailer hl hk h hs hi

/-! ## A byte of OUT -/

theorem State.slot_of_busy {s : State} (hb : s.phase = .busy) :
    s.slot = slotAt s.params.order s.framedLen s.outcnt.toNat := if_pos hb

theorem State.pixels_length {s : State} {pixels : List Byte} (hbuf : s.pixels = some pixels)
    (hshape : s.ShapeMatches) :
    pixels.length = pixelBytes s.sel s.width.toNat s.height.toNat :=
  (pixelBuffer_read hbuf).1.trans hshape

/-- The units of a state that differs from `s` in internal registers alone, in the terms of `s`. -/
theorem UnitsAt.of_touches {s u : State} {pixels : List Byte} {k : Nat} (hu : TouchesInternals s u)
    (hpack : Packing u pixels (framedAt s.params.order s.framedLen k)
      (blockAt s.params.order s.framedLen k)) (hcrc : CrcAt s pixels k u.crc) :
    UnitsAt u pixels k := by
  obtain ⟨_, _, _, _, _, _, _, _, rfl⟩ := hu
  exact ⟨hpack, hcrc⟩

/-- What the operation that owns OUTCNT has to do at offset `k`: offer `OUT[k]`, and when it is
accepted leave the units where the closed form has them at `k + 1` (R283, R285). -/
def EmitsOut (s : State) (pixels : List Byte) (i : Instr) (k : Nat) : Prop :=
  ∃ b adv, exec i s = emit b adv s ∧ (s.out pixels)[k]? = some b
    ∧ TouchesInternals s (adv s) ∧ UnitsAt (adv s) pixels (k + 1)

/-- SIGNATURE (R272). -/
theorem emitsOut_signature {s : State} {pixels : List Byte} {i : Instr} {k : Nat} (hk : k < 8)
    (hu : UnitsAt s pixels k) (hs : s.slot = slotAt s.params.order s.framedLen k)
    (hi : s.owner = some i) : EmitsOut s pixels i k := by
  rw [slotAt_signature hk] at hs
  rw [State.owner, hs] at hi
  obtain rfl := Option.some.inj hi
  have hstart : 33 ≤ idatStart s.params.order := by cases s.params.order <;> decide
  have hpack := hu.packing
  obtain ⟨hf, hb⟩ := position_outside_stream (order := s.params.order) (n := s.framedLen) (k := k)
    (by omega)
  rw [← hf, ← hb] at hpack
  refine ⟨_, _, by simp only [exec, execSignature, hs]; rfl, ?_, .refl s, .of_touches (.refl s) hpack ?_⟩
  · rw [State.out_eq_chunks, List.getElem?_append_left hk]
    exact getElem?_eq_byteOf hk
  · intro span hspan
    have : crcSpan s.params.order s.framedLen (k + 1) = none := by
      by_cases h8 : k + 1 < 8
      · exact crcSpan_signature h8
      · obtain rfl : k = 7 := by omega
        exact crcSpan_chunk (c := .ihdr) (j := 0) (by omega)
    rw [this] at hspan
    cases hspan

/-- A byte of one of the four chunks (R273 to R277). -/
theorem emitsOut_chunk {s : State} {pixels : List Byte} {i : Instr} {c : Chunk} {j : Nat}
    (hbuf : s.pixels = some pixels) (hrun : Running s)
    (hj : j < 12 + chunkLen (Machine.streamSize s.framedLen) c)
    (hu : UnitsAt s pixels (chunkStart s.params.order (Machine.streamSize s.framedLen) c + j))
    (hs : s.slot = slotAt s.params.order s.framedLen
      (chunkStart s.params.order (Machine.streamSize s.framedLen) c + j))
    (hi : s.owner = some i) :
    EmitsOut s pixels i (chunkStart s.params.order (Machine.streamSize s.framedLen) c + j) := by
  have hp := State.pixels_length hbuf hrun.shape
  have hl := State.frame_length hp
  obtain ⟨hpack, hcrc⟩ := hu
  rw [slotAt_chunk hj] at hs
  rcases chunkSlot_cases s.params.order hj with ⟨rfl, o, ho, rfl, hslot⟩ | ⟨hslot, hidat, hout⟩
  · rw [hslot] at hs
    have hat : chunkStart s.params.order (Machine.streamSize s.framedLen) .idat + (8 + o)
        = idatStart s.params.order + 8 + o := by rw [chunkStart]; omega
    have hbyte := State.out_getElem?_chunk hp .idat hj
    have hnext := fun b => CrcAt.next (b := b) hp hj hcrc
    rw [hat] at hpack hbyte hnext ⊢
    rw [framedAt_stream, blockAt_stream] at hpack
    obtain ⟨b, adv, hexec, hb, htouch, hadv, hpack'⟩ := emitsStream hl hbuf hrun ho hpack hs hi
    have hchunk : (s.chunkBytes pixels .idat)[8 + o]? = some b := by
      rw [show 8 + o = 4 + (4 + o) by omega, State.chunkBytes_getElem?_covered,
        getElem?_append_at (chunkTag_length _)]
      · exact (pack_getElem? _ _ (by rwa [hl])).trans (by rwa [hl])
      · rw [State.chunkPayload_length hp, chunkLen]; omega
    refine ⟨b, adv, hexec, hbyte.trans hchunk, htouch, .of_touches htouch ?_ ?_⟩
    · rwa [Nat.add_assoc, framedAt_stream, blockAt_stream]
    · rw [hadv]
      have := hnext b hchunk
      rwa [chunkCrc, if_neg (by omega), if_neg (by omega), if_pos (by simp only [chunkLen]; omega)]
        at this
  · rw [hslot] at hs
    obtain ⟨adv, hemit, hadv⟩ := emitField_chunkField (chunkTag c)
      (chunkLen (Machine.streamSize s.framedLen) c) (s.chunkSource c) j s
    have hchunk := State.chunkBytes_getElem?_eq_fieldByte hp hj hcrc hidat
    have htouch : TouchesInternals s (adv s) := hadv ▸ TouchesInternals.crc s _
    refine ⟨_, adv, (exec_of_chunk_slot hs hi).trans hemit,
      (State.out_getElem?_chunk hp c hj).trans hchunk, htouch, .of_touches htouch ?_ ?_⟩
    · rw [hadv]
      obtain ⟨hf, hb⟩ := position_outside_stream hout
      rw [hf, hb]
      exact hpack.withCrc _
    · rw [hadv]
      exact hcrc.next hp hj hchunk

/-- In a running ENCODE the operation that owns OUTCNT offers `OUT[OUTCNT]` (R282, R283). -/
theorem owner_emitsOut {s : State} {pixels : List Byte} {i : Instr} (hbuf : s.pixels = some pixels)
    (hrun : Running s) (hu : UnitsAt s pixels s.outcnt.toNat) (hi : s.owner = some i) :
    EmitsOut s pixels i s.outcnt.toNat := by
  have hs := State.slot_of_busy (owner_some hi).1
  rcases out_chunk_cases s.params.order hrun.inside with h8 | ⟨c, j, hj, hk⟩
  · exact emitsOut_signature h8 hu hs hi
  · rw [hk] at hu hs ⊢
    exact emitsOut_chunk hbuf hrun hj hu hs hi

end Sys2Proof.Machine

/-! PROOFS. Every step keeps the invariant, and with the buffer supplied none faults (R21, R283). -/

namespace Sys2Proof.Machine

/-! ## Commands, formats and host operations -/

/-- PRED holds the predicted size without truncation (R30). -/
theorem State.accept_pred_toNat (s : State) :
    s.accept.pred.toNat = predictedSize s.sel s.width.toNat s.height.toNat :=
  Nat.mod_eq_of_lt (predictedSize_lt s.sel s.width s.height)

/-- An ENCODE that fails a check leaves OUTCNT and SINKCODE 0 (R131, R302, R304). -/
theorem Inv.acceptError {s : State} (h : Inv s) {e : Cause}
    (he : e = .contractViolation ∨ e = .lengthOverflow) : Inv (s.accept.raiseError e 0) where
  registers := by
    rcases he with rfl | rfl <;> constructor <;> simp [State.raiseError, State.setStatus, State.accept]
  memory := by rcases he with rfl | rfl <;> exact h.memory
  params := by rcases he with rfl | rfl <;> exact h.params
  streaming := by rcases he with rfl | rfl <;> exact nofun

/-- An accepted ENCODE starts with nothing delivered and every unit at its first value (R131). -/
theorem Inv.startEmission {s : State} (h : Inv s) (hshape : s.ShapeMatches) (hfits : s.PayloadFits) :
    Inv s.accept.startEmission where
  registers :=
    { flags := ⟨fun _ => nofun, fun _ => rfl⟩
      sinkcode := fun _ => rfl
      idle := nofun
      busy := fun _ => ⟨hshape, hfits, Nat.lt_of_lt_of_le (by decide : 0 < 70) (Nat.le_add_right _ _),
        s.accept_pred_toNat⟩
      done := nofun
      untouched := nofun
      failed := nofun
      bounded := (by decide : (0 : BitVec 64).toNat < 2 ^ 33) }
  memory := h.memory
  params := h.params
  streaming := fun _ pixels _ => by
    refine (streaming_iff_unitsAt _ _).2 ⟨Nat.zero_le _, ?_, ?_, ?_⟩
    · show s.sink.drop (s.sink.length - 0) = _
      simp only [Nat.sub_zero, List.drop_length]
      rfl
    · have ⟨hf, hb⟩ := framedAt_before (order := s.params.order) (n := s.framedLen) (k := 0)
        (Nat.zero_le _)
      show Packing _ _ (framedAt s.params.order s.framedLen 0) (blockAt s.params.order s.framedLen 0)
      rw [hf, hb]
      exact ⟨rfl, (Nat.zero_div _).symm, (Nat.zero_mod _).symm, rfl, rfl⟩
    · exact nofun

/-- PREDICT ends DONE with nothing counted (R132). -/
theorem Inv.predict {s : State} (h : Inv s) : Inv (s.accept.setStatus .done .none) where
  registers := by constructor <;> simp [State.setStatus, State.accept]
  memory := h.memory
  params := h.params
  streaming := nofun

theorem Inv.execCmd {s t : State} (h : Inv s) {w : Word} (hs : exec (decodeCmd w) s = .next t) :
    Inv t := by
  rcases exec_decodeCmd_cases w hs with rfl | ⟨_, _, _, rfl⟩ | ⟨_, _, _, _, rfl⟩
    | ⟨_, _, hshape, hfits, rfl⟩ | ⟨_, _, rfl⟩
  · exact h
  · exact h.acceptError (.inl rfl)
  · exact h.acceptError (.inr rfl)
  · exact h.startEmission hshape hfits
  · exact h.predict

/-- Outside BUSY the shape registers and PIXMEM play no part in the invariant (R34, R135, R138). -/
theorem Inv.reconfigure {s : State} (h : Inv s) (hb : s.phase ≠ .busy) (f : ColorFormat) (w g : Word)
    (p : BitVec 64) {m : List Host.Cell} (hm : Memory.wf m) :
    Inv { s with sel := f, width := w, height := g, pixlen := p, pixmem := m } where
  registers :=
    { flags := h.registers.flags
      sinkcode := h.registers.sinkcode
      idle := h.registers.idle
      busy := fun hb' => absurd hb' hb
      done := h.registers.done
      untouched := h.registers.untouched
      failed := h.registers.failed
      bounded := h.registers.bounded }
  memory := hm
  params := h.params
  streaming := fun hb' => absurd hb' hb

theorem Inv.execFormat {s t : State} (h : Inv s) {w : Word}
    (hs : exec (decodeFormat w) s = .next t) : Inv t := by
  rcases exec_decodeFormat_cases w hs with ⟨_, rfl⟩ | ⟨hb, f, rfl⟩
  · exact h
  · exact h.reconfigure hb f s.width s.height s.pixlen h.memory

/-- A reset leaves IDLE with every register cleared (R340, R341). -/
theorem Inv.resetCore {s : State} (h : Inv s) : Inv s.resetCore where
  registers :=
    { flags := ⟨fun _ => nofun, fun _ => rfl⟩
      sinkcode := fun _ => rfl
      idle := fun _ => ⟨rfl, rfl⟩
      busy := nofun
      done := nofun
      untouched := fun _ => rfl
      failed := nofun
      bounded := (by decide : (0 : BitVec 64).toNat < 2 ^ 33) }
  memory := h.memory
  params := h.params
  streaming := nofun

theorem Inv.hostStep {s t : State} (h : Inv s) {op : HostOp} (hs : hostStep op s = .next t) :
    Inv t := by
  rcases hostStep_cases hs with ⟨w, g, p, rfl, hbusy, _⟩ | ⟨r, rfl, _⟩ | ⟨a, bytes, _, hb, ha, rfl⟩
    | ⟨p, _, rfl⟩ | ⟨_, _, rfl⟩ | ⟨_, rfl⟩
  · by_cases hb : s.phase = .busy
    · rw [hbusy hb]; exact h
    · exact h.reconfigure hb s.sel w g p h.memory
  · exact h.withHost s.program s.policy r s.answer
  · exact h.reconfigure hb s.sel s.width s.height s.pixlen (Memory.wf_writeBytes bytes h.memory ha)
  · exact h.withHost s.program p s.reads s.answer
  · exact h
  · exact h.resetCore

/-! ## The sink's answer -/

/-- FAIL ends the command where it stands (R287, R303). -/
theorem Inv.sinkFailure {s : State} (h : Inv s) (hb : s.phase = .busy) (code : Word) :
    Inv { s with answer := none, sinkcode := code, phase := .error, cause := .sinkFailure } where
  registers :=
    { flags := by simp
      sinkcode := fun hc => absurd rfl hc
      idle := nofun
      busy := nofun
      done := nofun
      untouched := by simp
      failed := fun _ => by
        obtain ⟨_, _, hinside, hpred⟩ := h.registers.busy hb
        rwa [State.outLen_eq_predictedSize, ← hpred] at hinside
      bounded := h.registers.bounded }
  memory := h.memory
  params := h.params
  streaming := nofun

/-- OUTCNT counts the delivered byte without wrapping (R28). -/
theorem Running.outcnt_succ {s : State} (h : Running s) :
    (s.outcnt + 1).toNat = s.outcnt.toNat + 1 := by
  have := State.outLen_lt_of_fits h.fits
  have := h.inside
  simp; omega

/-- What delivering a byte leaves alone besides the internal registers (R285). -/
theorem TouchesInternals.deliver_frame {s u : State} (h : TouchesInternals s u) (b : Byte) :
    SameConfig s (u.deliver b) ∧ (u.deliver b).pixmem = s.pixmem
      ∧ (u.deliver b).sinkcode = s.sinkcode ∧ (u.deliver b).pred = s.pred := by
  obtain ⟨_, _, _, _, _, _, _, _, rfl⟩ := h
  rw [State.deliver_eq]
  exact ⟨⟨rfl, rfl, rfl, rfl, rfl⟩, rfl, rfl, rfl⟩

theorem SameConfig.outLen_eq {s t : State} (h : SameConfig s t) : t.outLen = s.outLen := by
  obtain ⟨_, hsel, hw, hh, _⟩ := h
  rw [State.outLen_eq_predictedSize, State.outLen_eq_predictedSize, hsel, hw, hh]

/-- The checks of an accepted ENCODE stay true while the configuration does (R34). -/
theorem Running.of_sameConfig {s t : State} (h : Running s) (hc : SameConfig s t)
    (hpred : t.pred = s.pred) (hinside : t.outcnt.toNat < s.outLen) : Running t := by
  have hlen := hc.outLen_eq
  obtain ⟨hparams, hsel, hw, hh, hp⟩ := hc
  refine ⟨?_, ?_, by rwa [hlen], ?_⟩
  · rw [State.ShapeMatches, hsel, hw, hh, hp]
    exact h.shape
  · have hfits := h.fits
    simp only [State.PayloadFits, State.outLen, hparams] at *
    omega
  · rw [hpred, hsel, hw, hh]
    exact h.pred

/-- An accepted byte keeps the registers' law: the last one ends DONE with OUTCNT = PRED (R285,
R286). -/
theorem RegisterInv.deliver {s u : State} (h : RegisterInv s) (hb : s.phase = .busy)
    (hu : TouchesInternals s u) (b : Byte) : RegisterInv (u.deliver b) := by
  have hrun := h.busy hb
  have hnone : s.cause = .none := h.flags.2 (by simp [hb])
  have hlen := State.outLen_lt_of_fits hrun.fits
  have hinside := hrun.inside
  obtain ⟨hconfig, -, hsinkcode, hpred⟩ := hu.deliver_frame b
  obtain ⟨-, houtcnt, -, hlast, hmore⟩ := hu.delivered b
  have hcount : (u.deliver b).outcnt.toNat = s.outcnt.toNat + 1 := houtcnt ▸ hrun.outcnt_succ
  have hzero : (u.deliver b).sinkcode = 0 := hsinkcode.trans (h.sinkcode (by simp [hnone]))
  generalize u.deliver b = t at *
  by_cases hend : t.outcnt.toNat = s.outLen
  · obtain ⟨hphase, hcause⟩ := hlast hend
    exact
      { flags := by simp [hphase, hcause]
        sinkcode := fun _ => hzero
        idle := by simp [hphase]
        busy := by simp [hphase]
        done := fun _ => .inr (by rw [hend, State.outLen_eq_predictedSize, hpred, hrun.pred])
        untouched := by simp [hcause]
        failed := by simp [hcause]
        bounded := by omega }
  · obtain ⟨hphase, hcause⟩ := hmore hend
    rw [hb] at hphase
    rw [hnone] at hcause
    exact
      { flags := by simp [hphase, hcause]
        sinkcode := fun _ => hzero
        idle := by simp [hphase]
        busy := fun _ => hrun.of_sameConfig hconfig hpred (by omega)
        done := by simp [hphase]
        untouched := by simp [hcause]
        failed := by simp [hcause]
        bounded := by omega }

/-- An accepted byte is the next byte of OUT, and the units follow (R283). -/
theorem Streaming.deliver {s u : State} {pixels : List Byte} {b : Byte} (h : Streaming s pixels)
    (hrun : Running s) (hu : TouchesInternals s u)
    (hb : (s.out pixels)[s.outcnt.toNat]? = some b)
    (hunits : UnitsAt u pixels (s.outcnt.toNat + 1)) : Streaming (u.deliver b) pixels := by
  have hsucc := hrun.outcnt_succ
  obtain ⟨hcounted, hdelivered, -⟩ := (streaming_iff_unitsAt _ _).1 h
  have htake := take_succ_of_getElem? hb
  obtain ⟨_, _, _, _, _, _, _, _, rfl⟩ := hu
  rw [State.deliver_eq]
  refine (streaming_iff_unitsAt _ _).2 ⟨?_, ?_, ?_⟩
  · show (s.outcnt + 1).toNat ≤ (s.sink ++ [b]).length
    rw [hsucc, List.length_append]
    exact Nat.succ_le_succ hcounted
  · show (s.sink ++ [b]).drop ((s.sink ++ [b]).length - (s.outcnt + 1).toNat)
      = (s.out pixels).take (s.outcnt + 1).toNat
    rw [hsucc, htake, ← hdelivered, State.delivered, List.length_append, List.length_singleton,
      Nat.add_sub_add_right, List.drop_append_of_le_length (by omega)]
  · show UnitsAt _ pixels (s.outcnt + 1).toNat
    rw [hsucc]
    exact ⟨⟨hunits.packing.fidx, hunits.packing.row, hunits.packing.col, hunits.packing.adler,
      hunits.packing.block⟩, hunits.crc⟩

theorem Inv.execRecord {s t : State} (h : Inv s) {i : Instr} (hi : s.owner = some i)
    (hs : exec i s = .next t) : Inv t := by
  obtain ⟨hb, hcases⟩ := exec_record_next (owner_some hi).2.2 hs
  rcases hcases with ⟨_, rfl⟩ | ⟨ha, b, u, hu, rfl⟩ | ⟨code, _, rfl⟩
  · exact h
  · have hrun := h.registers.busy hb
    obtain ⟨⟨hparams, -, -, -, hpixlen⟩, hpixmem, -⟩ := hu.deliver_frame b
    refine ⟨h.registers.deliver hb hu b, ?_, ?_, fun _ pixels hbuf => ?_⟩
    · rw [hpixmem]; exact h.memory
    · rw [hparams]; exact h.params
    · rw [State.pixels, hpixmem, hpixlen] at hbuf
      have hstream := h.streaming hb pixels hbuf
      obtain ⟨b', adv, hexec, hbyte, htouch, hunits⟩ :=
        owner_emitsOut hbuf hrun ((streaming_iff_unitsAt _ _).1 hstream).2.2 hi
      rw [hexec, emit_of_accept ha] at hs
      rw [← Host.Outcome.next.inj hs]
      exact hstream.deliver hrun htouch hbyte hunits
  · exact h.sinkFailure hb code

/-- Settles O52: each host operation keeps the invariant, and a record operation emits the byte of OUT
that `owner_emitsOut` names. -/
theorem everyStepKeepsTheInvariant : Obligations.EveryStepKeepsTheInvariant := by
  intro s t h hstep
  rcases fetch_cases s with ⟨_, hf⟩ | ⟨w, rest, _, hf⟩ | ⟨w, rest, _, hf⟩ | ⟨a, rest, i, _, hi, hf⟩
    | ⟨rest, i, _, hi, hf⟩ | ⟨op, rest, _, hf, _⟩
  · rw [step_of_idle hf] at hstep
    exact Host.Outcome.next.inj hstep ▸ h
  · exact (h.withProgram rest).execCmd (step_of_instr hf ▸ hstep)
  · exact (h.withProgram rest).execFormat (step_of_instr hf ▸ hstep)
  · exact (h.withHost rest s.policy s.reads (some a)).execRecord hi (step_of_instr hf ▸ hstep)
  · exact (h.withHost s.program s.policy s.reads
      (some (s.policy.answer s.outcnt.toNat))).execRecord hi (step_of_instr hf ▸ hstep)
  · exact (h.withProgram rest).hostStep (step_of_access hf ▸ hstep)

/-! ## Faults -/

/-- A CMD word always has a next state. -/
theorem exec_decodeCmd_ne_fault (w : Word) (s : State) (r : Fault) :
    exec (decodeCmd w) s ≠ .fault r := by
  rcases low_cases w with h | h | h | h <;> simp only [decodeCmd, h, exec]
  · exact nofun
  · unfold execEncode
    split
    · exact nofun
    · split
      · exact nofun
      · split <;> exact nofun
  · unfold execPredict
    split <;> exact nofun
  · exact nofun

/-- A FORMAT word always has a next state. -/
theorem exec_decodeFormat_ne_fault (w : Word) (s : State) (r : Fault) :
    exec (decodeFormat w) s ≠ .fault r := by
  rcases low_cases w with h | h | h | h <;> simp only [decodeFormat, h, exec] <;> exact nofun

/-- A host operation that is no instruction faults only at an answer or a WAIT while BUSY (log 16). -/
theorem hostStep_fault {op : HostOp} {s : State} {r : Fault} (h : hostStep op s = .fault r) :
    s.phase = .busy ∧ ((∃ a, op = .answer a) ∨ op = .wait) := by
  cases op with
  | write off size v => simp only [hostStep, hostWrite] at h; split at h <;> cases h
  | read off size => simp only [hostStep, hostRead] at h; split at h <;> cases h
  | pix a bytes =>
    simp only [hostStep, hostPix] at h
    split at h
    · cases h
    · split at h <;> cases h
  | answer a =>
    simp only [hostStep, hostAnswer] at h
    split at h
    · exact ⟨‹_›, .inl ⟨a, rfl⟩⟩
    · cases h
  | sink p => cases h
  | wait =>
    simp only [hostStep, hostWait] at h
    split at h
    · exact ⟨‹_›, .inr rfl⟩
    · cases h
  | reset => cases h

/-- With the buffer in PIXMEM, the operation that owns OUTCNT has its byte (R61). -/
theorem Inv.exec_owner_ne_fault {s : State} (h : Inv s) (hbuf : BufferComplete s) {i : Instr}
    (hi : s.owner = some i) (r : Fault) : exec i s ≠ .fault r := by
  obtain ⟨pixels, hbuf⟩ := hbuf
  have hb := (owner_some hi).1
  have hunits := ((streaming_iff_unitsAt _ _).1 (h.streaming hb pixels hbuf)).2.2
  obtain ⟨b, adv, hexec, -⟩ := owner_emitsOut hbuf (h.registers.busy hb) hunits hi
  obtain ⟨t, ht⟩ := emit_next b adv s
  rw [hexec, ht]
  exact nofun

/-- Settles O59: a running ENCODE stands inside OUT, so some operation owns OUTCNT and emits a byte; no
other operation of the host faults. -/
theorem completeBufferNeverFaults : Obligations.CompleteBufferNeverFaults := by
  intro s h hbuf r hstep
  rcases fetch_cases s with ⟨_, hf⟩ | ⟨w, rest, _, hf⟩ | ⟨w, rest, _, hf⟩ | ⟨a, rest, i, _, hi, hf⟩
    | ⟨rest, i, _, hi, hf⟩ | ⟨op, rest, _, hf, _, hanswer, hwait⟩
  · rw [step_of_idle hf] at hstep
    cases hstep
  · rw [step_of_instr hf] at hstep
    exact exec_decodeCmd_ne_fault w _ r hstep
  · rw [step_of_instr hf] at hstep
    exact exec_decodeFormat_ne_fault w _ r hstep
  · rw [step_of_instr hf] at hstep
    exact (h.withHost rest s.policy s.reads (some a)).exec_owner_ne_fault
      (hbuf (owner_some hi).1) hi r hstep
  · rw [step_of_instr hf] at hstep
    exact (h.withHost s.program s.policy s.reads (some _)).exec_owner_ne_fault
      (hbuf (owner_some hi).1) hi r hstep
  · rw [step_of_access hf] at hstep
    obtain ⟨hb, hop⟩ := hostStep_fault hstep
    obtain ⟨i, hi⟩ := owner_of_busy (s := s) hb (h.registers.busy hb).inside
    rcases hop with ⟨a, rfl⟩ | rfl
    · rw [hanswer a rfl] at hi; cases hi
    · rw [hwait rfl] at hi; cases hi

end Sys2Proof.Machine

/-! PROOFS. The internal registers carry nothing over and cannot be observed (R31, R33, R342). -/

namespace Sys2Proof.Machine

/-! ## What a run depends on -/

/-- The part of a state that its run can depend on: the internal registers count only while BUSY. -/
def State.settled (s : State) : State := if s.phase = .busy then s else s.visible

/-- An outcome up to registers that no later step can tell apart. -/
def settledOutcome : Host.Outcome State Fault Refusal → Host.Outcome State Fault Refusal
  | .next s => .next s.settled
  | .fault r => .fault r
  | .refused r => .refused r

theorem State.settled_of_busy {s : State} (h : s.phase = .busy) : s.settled = s := if_pos h

theorem State.settled_of_quiet {s : State} (h : s.phase ≠ .busy) : s.settled = s.visible := if_neg h

theorem State.visible_settled (s : State) : s.settled.visible = s.visible := by
  unfold State.settled; split <;> rfl

theorem visibleOutcome_settled (o : Host.Outcome State Fault Refusal) :
    visibleOutcome (settledOutcome o) = visibleOutcome o := by
  cases o with
  | next s => exact congrArg Host.Outcome.next s.visible_settled
  | fault r => rfl
  | refused r => rfl

theorem settledOutcome_eq_next {o : Host.Outcome State Fault Refusal} {u : State}
    (h : settledOutcome o = .next u) : ∃ t, o = .next t ∧ t.settled = u := by
  cases o with
  | next t => exact ⟨t, rfl, Host.Outcome.next.inj h⟩
  | fault r => cases h
  | refused r => cases h

theorem settledOutcome_eq_fault {o : Host.Outcome State Fault Refusal} {r : Fault}
    (h : settledOutcome o = .fault r) : o = .fault r := by
  cases o with
  | next t => cases h
  | fault r' => exact h
  | refused r' => cases h

theorem settledOutcome_eq_refused {o : Host.Outcome State Fault Refusal} {r : Refusal}
    (h : settledOutcome o = .refused r) : o = .refused r := by
  cases o with
  | next t => cases h
  | fault r' => cases h
  | refused r' => exact h

/-! ## Outside BUSY a step does not look at the internal registers -/

theorem State.owner_of_quiet {s : State} (h : s.phase ≠ .busy) : s.owner = none := by
  simp [State.owner, State.slot, h, Slot.owner]

theorem settled_visible {s : State} (h : s.phase ≠ .busy) : s.visible.settled = s.settled := by
  rw [State.settled_of_quiet h]
  exact State.settled_of_quiet h

/-- A command word reads the host-visible registers alone, and ENCODE writes the internal ones (R131). -/
theorem settledOutcome_execCmd {s : State} (h : s.phase ≠ .busy) (w : Word) :
    settledOutcome (exec (decodeCmd w) s.visible) = settledOutcome (exec (decodeCmd w) s) := by
  have hv : s.visible.phase ≠ .busy := h
  rcases low_cases w with hw | hw | hw | hw <;> simp only [decodeCmd, hw, exec]
  · exact congrArg Host.Outcome.next (settled_visible h)
  · rw [execEncode, execEncode, if_neg h, if_neg hv]
    by_cases hshape : s.ShapeMatches
    · have hshape' : s.visible.ShapeMatches := hshape
      rw [if_neg (not_not.2 hshape), if_neg (not_not.2 hshape')]
      by_cases hfits : s.PayloadFits
      · have hfits' : s.visible.PayloadFits := hfits
        rw [if_neg (not_not.2 hfits), if_neg (not_not.2 hfits')]
        rfl
      · have hfits' : ¬ s.visible.PayloadFits := hfits
        rw [if_pos hfits, if_pos hfits']
        rfl
    · have hshape' : ¬ s.visible.ShapeMatches := hshape
      rw [if_pos hshape, if_pos hshape']
      rfl
  · rw [execPredict, execPredict, if_neg h, if_neg hv]
    rfl
  · exact congrArg Host.Outcome.next (settled_visible h)

theorem settledOutcome_execFormat {s : State} (h : s.phase ≠ .busy) (w : Word) :
    settledOutcome (exec (decodeFormat w) s.visible) = settledOutcome (exec (decodeFormat w) s) := by
  have hv : s.visible.phase ≠ .busy := h
  have select : ∀ f, settledOutcome (.next (s.visible.selectFormat f))
      = settledOutcome (.next (s.selectFormat f)) := fun f => by
    rw [State.selectFormat, State.selectFormat, if_neg h, if_neg hv]
    exact congrArg Host.Outcome.next (settled_visible (s := { s with sel := f }) h)
  rcases low_cases w with hw | hw | hw | hw <;> simp only [decodeFormat, hw, exec] <;> exact select _

theorem State.writeReg_visible (s : State) (r : Reg) (v : Word) :
    s.visible.writeReg r v = (s.writeReg r v).visible := by
  have hv : s.visible.phase = s.phase := rfl
  unfold State.writeReg
  rw [hv]
  split
  · rfl
  · cases r <;> rfl

theorem settledOutcome_hostStep {s : State} (h : s.phase ≠ .busy) (op : HostOp) :
    settledOutcome (hostStep op s.visible) = settledOutcome (hostStep op s) := by
  have hv : s.visible.phase ≠ .busy := h
  cases op with
  | write off size v =>
    simp only [hostStep, hostWrite]
    cases accessReg off size with
    | none => rfl
    | some r =>
      obtain ⟨_, _, _, hw⟩ := State.writeReg_cases s r v
      simp only [State.writeReg_visible]
      exact congrArg Host.Outcome.next (settled_visible (by rw [hw]; exact h))
  | read off size =>
    simp only [hostStep, hostRead]
    cases accessReg off size with
    | none => rfl
    | some r =>
      have hr : s.visible.readReg r = s.readReg r := by cases r <;> rfl
      simp only [hr]
      exact congrArg Host.Outcome.next
        (settled_visible (s := { s with reads := s.reads ++ [s.readReg r] }) h)
  | pix a bytes =>
    simp only [hostStep, hostPix, if_neg h, if_neg hv]
    split
    · exact congrArg Host.Outcome.next (settled_visible
        (s := { s with pixmem := Memory.writeBytes s.pixmem a.toNat bytes }) h)
    · rfl
  | answer a => simp only [hostStep, hostAnswer, if_neg h, if_neg hv]
  | sink p => exact congrArg Host.Outcome.next (settled_visible (s := { s with policy := p }) h)
  | wait =>
    simp only [hostStep, hostWait, if_neg h, if_neg hv]
    exact congrArg Host.Outcome.next (settled_visible h)
  | reset => rfl

/-! ## Steps and runs -/

/-- A fetched operation with the internal registers of its state cleared. -/
def Fetched.visible : Fetched → Fetched
  | .idle => .idle
  | .instr i s => .instr i s.visible
  | .access op s => .access op s.visible

/-- Outside BUSY no operation owns OUTCNT, so the fetch goes by the host's program alone (R282). -/
theorem fetch_visible {s : State} (h : s.phase ≠ .busy) : fetch s.visible = (fetch s).visible := by
  have ho : s.owner = none := State.owner_of_quiet h
  have hv : s.visible.owner = none := State.owner_of_quiet (s := s.visible) h
  have hp : s.visible.program = s.program := rfl
  simp only [fetch, hp]
  cases s.program with
  | nil => rfl
  | cons op rest =>
    cases op with
    | write off size v =>
      cases size with
      | word => cases hd : decode (.busWrite off v) <;> simp only [hd] <;> rfl
      | byte | half => rfl
    | answer a | wait => simp only [ho, hv]; rfl
    | read | pix | sink | reset => rfl

/-- A step depends on the settled part of its state alone: outside BUSY it runs a command word, a format
word or a host operation. -/
theorem settledOutcome_step (s : State) :
    settledOutcome (step s.settled) = settledOutcome (step s) := by
  by_cases hb : s.phase = .busy
  · rw [State.settled_of_busy hb]
  rw [State.settled_of_quiet hb]
  have hfv := fetch_visible hb
  rcases fetch_cases s with ⟨_, hf⟩ | ⟨w, rest, _, hf⟩ | ⟨w, rest, _, hf⟩ | ⟨a, rest, i, _, hi, hf⟩
    | ⟨rest, i, _, hi, hf⟩ | ⟨op, rest, _, hf, _⟩
  · rw [hf] at hfv
    rw [step_of_idle hf, step_of_idle hfv]
    exact congrArg Host.Outcome.next (settled_visible hb)
  · rw [hf] at hfv
    rw [step_of_instr hf, step_of_instr hfv]
    exact settledOutcome_execCmd (s := { s with program := rest }) hb w
  · rw [hf] at hfv
    rw [step_of_instr hf, step_of_instr hfv]
    exact settledOutcome_execFormat (s := { s with program := rest }) hb w
  · exact absurd (owner_some hi).1 hb
  · exact absurd (owner_some hi).1 hb
  · rw [hf] at hfv
    rw [step_of_access hf, step_of_access hfv]
    exact settledOutcome_hostStep (s := { s with program := rest }) hb op

/-- A run of one step more: the run from the next state, or the stop. -/
theorem run_succ (M : Host.Core) (k : Nat) (s : M.State) :
    (∀ t, M.step s = .next t → M.run (k + 1) s = M.run k t)
      ∧ (∀ r, M.step s = .fault r → M.run (k + 1) s = .fault r)
      ∧ (∀ r, M.step s = .refused r → M.run (k + 1) s = .refused r) := by
  refine ⟨fun t h => ?_, fun r h => ?_, fun r h => ?_⟩ <;> simp only [Host.Core.run, h]

theorem runFor_succ_of_next {s t : State} (h : step s = .next t) (k : Nat) :
    runFor (k + 1) s = runFor k t := (run_succ Sys2Proof.core k s).1 t h

theorem runFor_succ_of_fault {s : State} {r : Fault} (h : step s = .fault r) (k : Nat) :
    runFor (k + 1) s = .fault r := (run_succ Sys2Proof.core k s).2.1 r h

theorem runFor_succ_of_refused {s : State} {r : Refusal} (h : step s = .refused r) (k : Nat) :
    runFor (k + 1) s = .refused r := (run_succ Sys2Proof.core k s).2.2 r h

/-- A run depends on the settled part of its first state alone. -/
theorem settledOutcome_runFor (k : Nat) {s t : State} (h : s.settled = t.settled) :
    settledOutcome (runFor k s) = settledOutcome (runFor k t) := by
  induction k generalizing s t with
  | zero => exact congrArg Host.Outcome.next h
  | succ k ih =>
    have hstep : settledOutcome (step s) = settledOutcome (step t) := by
      rw [← settledOutcome_step, h, settledOutcome_step]
    cases hs : step s with
    | next s' =>
      obtain ⟨t', ht, hst⟩ := settledOutcome_eq_next (hs ▸ hstep).symm
      rw [runFor_succ_of_next hs, runFor_succ_of_next ht]
      exact ih hst.symm
    | fault r =>
      have ht := settledOutcome_eq_fault (hs ▸ hstep).symm
      rw [runFor_succ_of_fault hs, runFor_succ_of_fault ht]
    | refused r =>
      have ht := settledOutcome_eq_refused (hs ▸ hstep).symm
      rw [runFor_succ_of_refused hs, runFor_succ_of_refused ht]

/-- Settles O58: states outside BUSY that agree outside the internal registers settle to the same state,
and a run sees no more than that. -/
theorem internalRegistersAreUnobservable : Obligations.InternalRegistersAreUnobservable := by
  intro k s t hs hst
  have ht : t.phase ≠ .busy := by
    have hphase : s.visible.phase = t.visible.phase := by rw [hst]
    exact fun hb => hs (hphase.trans hb)
  have hsettled : s.settled = t.settled := by
    rw [State.settled_of_quiet hs, State.settled_of_quiet ht, hst]
  rw [← visibleOutcome_settled, settledOutcome_runFor k hsettled, visibleOutcome_settled]

end Sys2Proof.Machine

/-! PROOFS. STATUS changes where R27 says, and the register writes that do nothing or select a format
(R66, R91, R135). -/

namespace Sys2Proof.Machine

/-! ## STATUS -/

/-- A host operation other than a reset leaves STATUS alone (R27). -/
theorem hostStep_status {op : HostOp} {s t : State} (h : hostStep op s = .next t) :
    op = .reset ∨ (t.phase = s.phase ∧ t.cause = s.cause) := by
  rcases hostStep_cases h with ⟨_, _, _, rfl, _⟩ | ⟨_, rfl, _⟩ | ⟨_, _, _, _, _, rfl⟩ | ⟨_, _, rfl⟩
    | ⟨_, _, rfl⟩ | ⟨rfl, _⟩
  case inr.inr.inr.inr.inr => exact .inl rfl
  all_goals exact .inr ⟨rfl, rfl⟩

/-- Settles O40, by the cases of a step: NOP, OP 3, the formats and the other host operations leave STATUS
alone. -/
theorem statusChangesOnlyWhereTheSpecSays : Obligations.StatusChangesOnlyWhereTheSpecSays := by
  intro s t hstep hne
  rcases fetch_cases s with ⟨_, hf⟩ | ⟨w, rest, hp, hf⟩ | ⟨w, rest, _, hf⟩ | ⟨a, rest, i, hp, hi, _⟩
    | ⟨rest, i, hp, hi, _⟩ | ⟨op, rest, hp, hf, _⟩
  · rw [step_of_idle hf] at hstep
    cases hstep
    exact absurd rfl hne
  · rw [step_of_instr hf] at hstep
    rcases exec_decodeCmd_cases w hstep with rfl | ⟨hb, hw, _⟩ | ⟨hb, hw, _⟩ | ⟨hb, hw, _⟩
      | ⟨hb, hw, _⟩
    · exact absurd rfl hne
    · exact .inl ⟨hb, w, rest, hp, .inl hw⟩
    · exact .inl ⟨hb, w, rest, hp, .inl hw⟩
    · exact .inl ⟨hb, w, rest, hp, .inl hw⟩
    · exact .inl ⟨hb, w, rest, hp, .inr hw⟩
  · rw [step_of_instr hf] at hstep
    rcases exec_decodeFormat_cases w hstep with ⟨_, rfl⟩ | ⟨_, _, rfl⟩ <;> exact absurd rfl hne
  · exact .inr (.inl ⟨(owner_some hi).1, a, rest, .inl hp⟩)
  · exact .inr (.inl ⟨(owner_some hi).1, .accept, rest, .inr hp⟩)
  · rw [step_of_access hf] at hstep
    rcases hostStep_status hstep with rfl | ⟨hphase, hcause⟩
    · exact .inr (.inr ⟨rest, hp⟩)
    · rw [hphase, hcause] at hne
      exact absurd rfl hne

/-! ## Register writes -/

/-- The registers that no host write changes (R22). -/
def Reg.ReadOnly : Reg → Prop
  | .status | .sinkcode | .outcntLo | .outcntHi | .pred0 | .pred1 | .pred2 | .pred3 | .reserved => True
  | .cmd | .format | .width | .height | .pixlenLo | .pixlenHi => False

/-- The register space from 0x18 on is read-only or reserved (R22). -/
theorem regAt_readOnly {off : Nat} (hlo : 0x18 ≤ off) (hhi : off < 0x40) (hal : off % 4 = 0) :
    ∃ r, regAt off = some r ∧ r.ReadOnly := by
  obtain ⟨k, rfl⟩ : ∃ k, off = 4 * k := ⟨off / 4, by omega⟩
  obtain ⟨h6, h16⟩ : 6 ≤ k ∧ k < 16 := by omega
  interval_cases k <;> exact ⟨_, rfl, trivial⟩

/-- A write to a read-only or reserved register is ignored (R66). -/
theorem State.writeReg_of_readOnly (s : State) {r : Reg} (h : r.ReadOnly) (v : Word) :
    s.writeReg r v = s := by
  unfold State.writeReg
  split
  · rfl
  · cases r with
    | status | sinkcode | outcntLo | outcntHi | pred0 | pred1 | pred2 | pred3 | reserved => rfl
    | cmd | format | width | height | pixlenLo | pixlenHi => exact h.elim

/-- A word written elsewhere than to CMD and FORMAT is a plain register write (R135). -/
theorem step_of_registerWrite {s : State} {off : Nat} {v : Word} {rest : List HostOp}
    (hp : s.program = .write off .word v :: rest) (hcmd : off ≠ 0x00) (hformat : off ≠ 0x04) :
    step s = hostWrite off .word v { s with program := rest } := by
  have hf : fetch s = .access (.write off .word v) { s with program := rest } := by
    simp [fetch, hp, decode, hcmd, hformat]
  exact step_of_access hf

/-- Settles O18: every offset from 0x18 to 0x3C holds a register that ignores writes. -/
theorem readOnlyRegistersIgnoreWrites : Obligations.ReadOnlyRegistersIgnoreWrites := by
  intro s off v rest hlo hhi hal hp
  obtain ⟨r, hr, hro⟩ := regAt_readOnly hlo hhi hal
  rw [step_of_registerWrite hp (by omega) (by omega)]
  simp only [hostWrite, accessReg, hr, State.writeReg_of_readOnly _ hro]

/-- Settles O15: outside BUSY each FORMAT word is `selectFormat`, and the rest is the table of R160. -/
theorem formatWordsSelectTheirFormat : Obligations.FormatWordsSelectTheirFormat := by
  intro rsv s hb
  have select : ∀ f, s.selectFormat f = { s with sel := f } := fun f => if_neg hb
  exact ⟨congrArg Host.Outcome.next (select .gray), congrArg Host.Outcome.next (select .grayAlpha),
    congrArg Host.Outcome.next (select .rgb), congrArg Host.Outcome.next (select .rgba),
    rfl, rfl, rfl, rfl, rfl, rfl, rfl, rfl⟩

end Sys2Proof.Machine

/-! PROOFS. PIXMEM and the sink (R60 to R64): who writes them, what a step leaves of them, and the host
accesses that have no meaning (R62, R67). -/

namespace Sys2Proof.Machine

/-! ## What a step does to PIXMEM and to the sink -/

/-- A CMD word reaches neither PIXMEM nor the sink (R130). -/
theorem exec_decodeCmd_spaces {w : Word} {s t : State} (h : exec (decodeCmd w) s = .next t) :
    t.pixmem = s.pixmem ∧ t.sink = s.sink := by
  rcases exec_decodeCmd_cases w h with rfl | ⟨_, _, _, rfl⟩ | ⟨_, _, _, _, rfl⟩ | ⟨_, _, _, _, rfl⟩
    | ⟨_, _, rfl⟩ <;> exact ⟨rfl, rfl⟩

/-- A FORMAT word reaches neither PIXMEM nor the sink (R135). -/
theorem exec_decodeFormat_spaces {w : Word} {s t : State} (h : exec (decodeFormat w) s = .next t) :
    t.pixmem = s.pixmem ∧ t.sink = s.sink := by
  rcases exec_decodeFormat_cases w h with ⟨_, rfl⟩ | ⟨_, _, rfl⟩ <;> exact ⟨rfl, rfl⟩

/-- A record operation only reads PIXMEM, and appends to the sink the byte that OUTCNT counts (R285). -/
theorem exec_record_spaces {i : Instr} (hi : IsRecord i) {s t : State} (h : exec i s = .next t) :
    t.pixmem = s.pixmem
    ∧ (t.sink = s.sink ∨ ∃ b, t.sink = s.sink ++ [b] ∧ s.phase = .busy ∧ t.outcnt = s.outcnt + 1) := by
  obtain ⟨hb, ⟨_, rfl⟩ | ⟨_, b, u, hu, rfl⟩ | ⟨code, _, rfl⟩⟩ := exec_record_next hi h
  · exact ⟨rfl, .inl rfl⟩
  · obtain ⟨_, _, _, _, _, _, _, _, rfl⟩ := hu
    simp [hb]
  · exact ⟨rfl, .inl rfl⟩

/-- No host operation writes the sink, and PIX alone writes PIXMEM (R61, R64, R341). -/
theorem hostStep_spaces {op : HostOp} {s t : State} (h : hostStep op s = .next t) :
    (t.pixmem = s.pixmem ∨ ∃ a bytes, op = .pix a bytes ∧ a.toNat + bytes.length ≤ 2 ^ 64
      ∧ t.pixmem = Memory.writeBytes s.pixmem a.toNat bytes)
    ∧ t.sink = s.sink := by
  rcases hostStep_cases h with ⟨_, _, _, rfl, _⟩ | ⟨_, rfl, _⟩ | ⟨a, bytes, hop, _, ha, rfl⟩ | ⟨_, _, rfl⟩
    | ⟨_, _, rfl⟩ | ⟨_, rfl⟩
  case inr.inr.inl => exact ⟨.inr ⟨a, bytes, hop, ha, rfl⟩, rfl⟩
  all_goals exact ⟨.inl rfl, rfl⟩

/-- All that a step can do to PIXMEM and to the sink: the host's PIX writes the one, an accepted byte
extends the other (R60, R64). -/
theorem step_spaces {s t : State} (h : step s = .next t) :
    (t.pixmem = s.pixmem ∨ ∃ a bytes rest, s.program = .pix a bytes :: rest
      ∧ a.toNat + bytes.length ≤ 2 ^ 64 ∧ t.pixmem = Memory.writeBytes s.pixmem a.toNat bytes)
    ∧ (t.sink = s.sink ∨ ∃ b, t.sink = s.sink ++ [b] ∧ s.phase = .busy ∧ t.outcnt = s.outcnt + 1) := by
  rcases fetch_cases s with ⟨_, hf⟩ | ⟨w, rest, _, hf⟩ | ⟨w, rest, _, hf⟩ | ⟨a, rest, i, _, hi, hf⟩
    | ⟨rest, i, _, hi, hf⟩ | ⟨op, rest, hp, hf, _⟩
  · rw [step_of_idle hf] at h
    cases h
    exact ⟨.inl rfl, .inl rfl⟩
  · rw [step_of_instr hf] at h
    exact (exec_decodeCmd_spaces h).imp .inl .inl
  · rw [step_of_instr hf] at h
    exact (exec_decodeFormat_spaces h).imp .inl .inl
  · rw [step_of_instr hf] at h
    exact (exec_record_spaces (owner_some hi).2.2 h).imp_left .inl
  · rw [step_of_instr hf] at h
    exact (exec_record_spaces (owner_some hi).2.2 h).imp_left .inl
  · rw [step_of_access hf] at h
    obtain ⟨hmem, hsink⟩ := hostStep_spaces h
    refine ⟨hmem.imp_right ?_, .inl hsink⟩
    rintro ⟨a, bytes, rfl, ha, hw⟩
    exact ⟨a, bytes, rest, hp, ha, hw⟩

/-- Settles O24: a step leaves PIXMEM alone or is a PIX. -/
theorem coreNeverWritesPixmem : Obligations.CoreNeverWritesPixmem := by
  intro s t h hpix
  rcases (step_spaces h).1 with hmem | ⟨a, bytes, rest, hp, _⟩
  · exact hmem
  · exact absurd hp (hpix a bytes rest)

/-- Settles O25: a step leaves PIXMEM alone or is a PIX inside the 64-bit space, which keeps the form. -/
theorem pixmemKeepsItsForm : Obligations.PixmemKeepsItsForm := by
  intro s t hwf h
  rcases (step_spaces h).1 with hmem | ⟨a, bytes, rest, _, ha, hmem⟩
  · exact hmem ▸ hwf
  · exact hmem ▸ Memory.wf_writeBytes bytes hwf ha

/-- Settles O41, by the cases of a step: a record operation alone writes the sink, one byte at a time. -/
theorem sinkOnlyGrows : Obligations.SinkOnlyGrows := fun _ _ h => (step_spaces h).2

/-! ## The host's PIX (R62, R138) -/

/-- A PIX is no instruction: it acts through the host port, in any state. -/
theorem step_of_pix {s : State} {a : BitVec 64} {bytes : List Byte} {rest : List HostOp}
    (hp : s.program = .pix a bytes :: rest) :
    step s = hostPix a bytes { s with program := rest } := by
  have hf : fetch s = .access (.pix a bytes) { s with program := rest } := by simp [fetch, hp]
  exact step_of_access hf

/-- Settles O22: the step writes PIXMEM alone, and a write of bytes reads back. -/
theorem pixmemWriteLandsInItsBytes : Obligations.PixmemWriteLandsInItsBytes := by
  intro s a bytes rest hb ha hp
  have hstep : step s = .next
      { s with program := rest, pixmem := Memory.writeBytes s.pixmem a.toNat bytes } := by
    rw [step_of_pix hp, hostPix, if_neg hb, if_pos ha]
  exact ⟨_, hstep, Memory.read_writeBytes bytes s.pixmem a.toNat, rfl, rfl⟩

/-- Settles O23: PIX asks for STATE other than BUSY first. -/
theorem pixmemWriteWhileBusyIsRefused : Obligations.PixmemWriteWhileBusyIsRefused := by
  intro s a bytes rest hb hp
  rw [step_of_pix hp, hostPix, if_pos hb]

/-! ## Undefined register accesses (R67) -/

/-- The registers stand at aligned offsets below 0x40 (R22, R66). -/
theorem regAt_defined {off : Nat} {r : Reg} (h : regAt off = some r) : off % 4 = 0 ∧ off < 0x40 := by
  unfold regAt at h
  split at h
  case h_17 => cases h
  all_goals decide

/-- A sub-word, misaligned or out-of-range access reaches no register (R67). -/
theorem accessReg_of_undefined {off : Nat} {size : AccessSize}
    (h : size ≠ .word ∨ off % 4 ≠ 0 ∨ 0x40 ≤ off) : accessReg off size = none := by
  cases size with
  | byte | half => rfl
  | word =>
    by_contra hsome
    obtain ⟨r, hr⟩ := Option.ne_none_iff_exists'.1 hsome
    obtain ⟨hal, hlt⟩ := regAt_defined hr
    rcases h with h | h | h
    · exact h rfl
    · exact h hal
    · omega

/-- A write that reaches no register is no instruction either: the host port refuses it. -/
theorem step_of_undefinedWrite {s : State} {off : Nat} {size : AccessSize} {v : Word}
    {rest : List HostOp} (h : accessReg off size = none) (hp : s.program = .write off size v :: rest) :
    step s = .refused (.registerAccess off size) := by
  have hf : fetch s = .access (.write off size v) { s with program := rest } := by
    cases size with
    | word =>
      have hcmd : off ≠ 0x00 := by rintro rfl; cases h
      have hformat : off ≠ 0x04 := by rintro rfl; cases h
      simp [fetch, hp, decode, hcmd, hformat]
    | byte | half => simp [fetch, hp]
  simp only [step_of_access hf, hostStep, hostWrite, h]

/-- A read that reaches no register is refused. -/
theorem step_of_undefinedRead {s : State} {off : Nat} {size : AccessSize} {rest : List HostOp}
    (h : accessReg off size = none) (hp : s.program = .read off size :: rest) :
    step s = .refused (.registerAccess off size) := by
  have hf : fetch s = .access (.read off size) { s with program := rest } := by simp [fetch, hp]
  simp only [step_of_access hf, hostStep, hostRead, h]

/-- Settles O20: an undefined access reaches no register, and the host port refuses what reaches none. -/
theorem undefinedRegisterAccessIsRefused : Obligations.UndefinedRegisterAccessIsRefused := by
  intro s off size v rest hundef
  have hnone := accessReg_of_undefined hundef
  exact ⟨step_of_undefinedWrite hnone, step_of_undefinedRead hnone⟩

/-! ## A record operation that does not deliver (R61, R287) -/

/-- Settles O37: of the three things a record operation can do, FAIL is the one that ends the command. -/
theorem sinkFailureAdvancesNothing : Obligations.SinkFailureAdvancesNothing := by
  intro i s t code hi hfail hexec
  have hrecord : IsRecord i := by
    rcases hi with rfl | rfl | rfl | rfl | rfl | rfl | rfl | ⟨m, rfl⟩ <;> trivial
  obtain ⟨_, ⟨hanswer, _⟩ | ⟨hanswer, _⟩ | ⟨_, hanswer, ht⟩⟩ := exec_record_next hrecord hexec
  · cases hfail.symm.trans hanswer
  · cases hfail.symm.trans hanswer
  · cases hfail.symm.trans hanswer
    exact ht

/-- Past the tag column the framer's byte is the PIXMEM byte at `row * stride + col - 1` (R182). -/
theorem State.framerByte_of_col_ne_zero {s : State} (h : s.col ≠ 0) :
    s.framerByte = Memory.read s.pixmem (framedAddr s.stride s.row.toNat s.col.toNat) := by
  have hcol : s.col.toNat ≠ 0 := fun h0 => h (BitVec.eq_of_toNat_eq h0)
  rw [State.framerByte, framedByte, if_neg hcol]

/-- Settles O26: at a payload offset CHUNK_IDAT emits the framer's byte, and there is none. -/
theorem missingPixelByteStopsTheCore : Obligations.MissingPixelByteStopsTheCore := by
  intro s b i _ hslot hcol hmiss
  have hnone : s.framerByte = none := (State.framerByte_of_col_ne_zero hcol).trans hmiss
  simp only [exec, execChunkIDAT, hslot, emitData, hnone, framedAddr]

/-! ## Several cores (R80) -/

/-- All that a step of core `k` can do to the list: nothing where there is no core `k`, and its own next
state in its place with one (R80). -/
theorem stepInstance_cases {k : Nat} {cores after : List State}
    (h : stepInstance k cores = .next after) :
    (cores[k]? = none ∧ after = cores)
    ∨ ∃ s t, cores[k]? = some s ∧ step s = .next t ∧ after = cores.set k t := by
  unfold stepInstance at h
  split at h
  · cases h
    exact .inl ⟨‹_›, rfl⟩
  · split at h
    · cases h
      exact .inr ⟨_, _, ‹_›, ‹_›, rfl⟩
    · cases h
    · cases h

/-- Settles O8: a list with one place replaced is the same list elsewhere. -/
theorem otherInstancesDoNotMove : Obligations.OtherInstancesDoNotMove := by
  intro k cores after h
  rcases stepInstance_cases h with ⟨hk, rfl⟩ | ⟨s, t, hk, hstep, rfl⟩
  · refine ⟨rfl, fun _ _ => rfl, fun s hs => ?_⟩
    rw [hk] at hs
    cases hs
  · have hlt : k < cores.length := (List.getElem?_eq_some_iff.1 hk).1
    refine ⟨List.length_set, fun j hj => List.getElem?_set_ne hj.symm, fun s' hs => ?_⟩
    obtain rfl : s = s' := Option.some.inj (hk.symm.trans hs)
    exact ⟨t, hstep, List.getElem?_set_self hlt⟩

end Sys2Proof.Machine

/-! PROOFS. Encodings (30_encoding): decode and encode invert each other, reserved bits choose nothing,
and an instruction placed in the state is the one the next step fetches. -/

namespace Sys2Proof.Machine

/-! ## Register words (R90, R91, R93) -/

/-- A word of 30 reserved bits and a 2-bit field loses neither. -/
theorem regWord_toNat {rsv low : Nat} (hr : rsv < 2 ^ 30) (hl : low < 4) :
    (regWord rsv low).toNat = rsv * 4 + low := by
  rw [regWord, BitVec.toNat_ofNat, Nat.mod_eq_of_lt (by omega)]

theorem regWord_low {rsv low : Nat} (hr : rsv < 2 ^ 30) (hl : low < 4) :
    (regWord rsv low).toNat % 4 = low := by
  rw [regWord_toNat hr hl]; omega

theorem regWord_rsv {rsv low : Nat} (hr : rsv < 2 ^ 30) (hl : low < 4) :
    (regWord rsv low).toNat / 4 = rsv := by
  rw [regWord_toNat hr hl]; omega

/-- A word is put together again from its two fields. -/
theorem regWord_of_low {w : Word} {low : Nat} (h : w.toNat % 4 = low) :
    regWord (w.toNat / 4) low = w := by
  apply BitVec.eq_of_toNat_eq
  have hw := w.isLt
  rw [regWord_toNat (by omega) (by omega)]
  omega

/-- The reserved bits of a word are 30 (R90, R91). -/
theorem word_rsv_lt (w : Word) : w.toNat / 4 < 2 ^ 30 := by
  have hw := w.isLt
  omega

theorem decode_cmdWord (w : Word) : decode (.busWrite 0x00 w) = .ok (decodeCmd w) := rfl

theorem decode_formatWord (w : Word) : decode (.busWrite 0x04 w) = .ok (decodeFormat w) := rfl

/-- Every CMD word is the encoding of a well-formed instruction (R90). -/
theorem encode_decodeCmd (w : Word) :
    encode (decodeCmd w) = .busWrite 0x00 w ∧ (decodeCmd w).WellFormed := by
  rcases low_cases w with h | h | h | h
  all_goals
    simp only [decodeCmd, h]
    exact ⟨congrArg (Encoded.busWrite 0x00) (regWord_of_low h), word_rsv_lt w⟩

/-- Every FORMAT word is the encoding of a well-formed instruction (R91). -/
theorem encode_decodeFormat (w : Word) :
    encode (decodeFormat w) = .busWrite 0x04 w ∧ (decodeFormat w).WellFormed := by
  rcases low_cases w with h | h | h | h
  all_goals
    simp only [decodeFormat, h]
    exact ⟨congrArg (Encoded.busWrite 0x04) (regWord_of_low h), word_rsv_lt w⟩

/-- Settles O2: a word is its reserved bits and its low field, and both stay in the instruction. -/
theorem encodeInvertsRegisterWords : Obligations.EncodeInvertsRegisterWords := by
  intro w
  obtain ⟨hcmd, hcmdWf⟩ := encode_decodeCmd w
  obtain ⟨hformat, hformatWf⟩ := encode_decodeFormat w
  exact ⟨hcmd, hcmdWf, hformat, hformatWf⟩

/-! ## Stored-block headers (R102, R103, R206) -/

/-- The length fields of a block header decode to the length they carry (R206). -/
theorem decodeBlockLength_fields (len : BitVec 16) :
    decodeBlockLength (len.extractLsb' 0 8) (len.extractLsb' 8 8) ((~~~len).extractLsb' 0 8)
      ((~~~len).extractLsb' 8 8) = .ok len.toNat := by
  have joined : ∀ v : BitVec 16, v.extractLsb' 8 8 ++ v.extractLsb' 0 8 = v := by
    intro v
    rw [BitVec.extractLsb'_append_extractLsb'_eq_extractLsb' (by decide)]
    exact BitVec.extractLsb'_eq_self
  rw [decodeBlockLength, joined, joined, if_pos rfl]

/-- The terminal block's header gives its payload length back, at most 65534 (R202, R204). -/
theorem decode_finalHeader {m : Nat} (h : m ≤ 65534) :
    decode (.record (blockHeader true (BitVec.ofNat 16 m))) = .ok (.blkhdrFinal m) := by
  have hlen : (BitVec.ofNat 16 m).toNat = m := by
    rw [BitVec.toNat_ofNat, Nat.mod_eq_of_lt (by omega)]
  have hrecord : decodeRecord (blockHeader true (BitVec.ofNat 16 m)) = .ok (.blkhdrFinal m, []) := by
    simp [blockHeader, le16, decodeRecord, decodeBlockLength_fields, hlen, h]
  rw [decode, hrecord]

/-! ## Decode after encode -/

/-- Settles O1: a register word by its two fields, a record by its bytes, the terminal block's header by
the length it carries. -/
theorem decodeInvertsEncode : Obligations.DecodeInvertsEncode := by
  intro i hi
  cases i with
  | nop | encode | predict | reservedOp3 =>
    simp only [encode, decode_cmdWord, decodeCmd, regWord_low hi, regWord_rsv hi, Nat.reduceLT]
  | formatGray | formatGrayAlpha | formatRGB | formatRGBA =>
    simp only [encode, decode_formatWord, decodeFormat, regWord_low hi, regWord_rsv hi, Nat.reduceLT]
  | signature | chunkIHDR | chunkIDAT | chunkSRGB | chunkIEND | zhdr | blkhdrNonfinal => rfl
  | blkhdrFinal m => exact decode_finalHeader hi

/-- Settles O3, by evaluation of the decoder on the eight words. -/
theorem writtenOutWordsDecode : Obligations.WrittenOutWordsDecode :=
  ⟨rfl, rfl, rfl, rfl, rfl, rfl, rfl, rfl⟩

/-! ## Reserved bits (R93) -/

/-- OP 3 acts as NOP (R133). -/
theorem exec_decodeCmd_op3 {v w : Word} (hv : v.toNat % 4 = 0) (hw : w.toNat % 4 = 3) (s : State) :
    exec (decodeCmd w) s = exec (decodeCmd v) s := by
  simp only [decodeCmd, hv, hw]
  rfl

/-- A CMD word acts by its OP field alone: no row's meaning reads the reserved bits. -/
theorem exec_decodeCmd_congr {v w : Word} (h : v.toNat % 4 = w.toNat % 4) (s : State) :
    exec (decodeCmd v) s = exec (decodeCmd w) s := by
  unfold decodeCmd
  rw [h]
  split <;> rfl

/-- A FORMAT word acts by its SEL field alone: no row's meaning reads the reserved bits. -/
theorem exec_decodeFormat_congr {v w : Word} (h : v.toNat % 4 = w.toNat % 4) (s : State) :
    exec (decodeFormat v) s = exec (decodeFormat w) s := by
  unfold decodeFormat
  rw [h]
  split <;> rfl

/-- Settles O4: OP 3 is NOP's meaning, and the low field alone chooses the meaning. -/
theorem reservedBitsAreIgnored : Obligations.ReservedBitsAreIgnored := by
  intro v w s
  exact ⟨⟨decode_cmdWord w, decode_formatWord w⟩, fun hv hw => exec_decodeCmd_op3 hv hw s,
    fun h => ⟨exec_decodeCmd_congr h s, exec_decodeFormat_congr h s⟩⟩

/-! ## Placed instructions (log 14) -/

/-- A register word is placed as the host's next write. -/
theorem State.placeInstr_of_busWrite (s : State) {i : Instr} {off : Nat} {w : Word}
    (h : encode i = .busWrite off w) :
    s.placeInstr i = { s with program := .write off .word w :: s.program } := by
  cases i with
  | nop | encode | predict | reservedOp3 | formatGray | formatGrayAlpha | formatRGB | formatRGBA =>
    simp only [State.placeInstr, h]
  | signature | chunkIHDR | chunkIDAT | chunkSRGB | chunkIEND | zhdr | blkhdrNonfinal | blkhdrFinal =>
    cases h

/-- A register word is fetched from where it is placed. -/
theorem fetch_placeInstr_of_busWrite (s : State) {i : Instr} (hi : i.WellFormed) {off : Nat} {w : Word}
    (h : encode i = .busWrite off w) : fetch (s.placeInstr i) = .instr i s := by
  have hd : decode (.busWrite off w) = .ok i := h ▸ decodeInvertsEncode i hi
  simp [State.placeInstr_of_busWrite s h, fetch, hd]

/-- A sink answer fetches the operation that owns the offered byte (R282). -/
theorem fetch_of_answer {s : State} {a : SinkAnswer} {rest : List HostOp} {i : Instr}
    (hp : s.program = .answer a :: rest) (ho : s.owner = some i) :
    fetch s = .instr i { s with program := rest, answer := some a } := by
  simp [fetch, hp, ho]

/-- The Gray image of width 0 that `poise` makes has one framed byte a row. -/
theorem State.poise_framedLen (s : State) {h : Nat} (k : Nat) (hh : h < 2 ^ 32) :
    (s.poise h k).framedLen = h := by
  have hheight : (s.poise h k).height.toNat = h := by
    rw [State.poise, BitVec.toNat_ofNat, Nat.mod_eq_of_lt hh]
  have hstride : (s.poise h k).stride = 0 := by
    simp [State.poise, State.stride, Machine.stride]
  calc (s.poise h k).framedLen
      = (s.poise h k).height.toNat * ((s.poise h k).stride + 1) := rfl
    _ = h := by rw [hheight, hstride, Nat.mul_one]

/-- The poised state offers the byte at offset `k`. -/
theorem State.poise_slot (s : State) {h k : Nat} (hh : h < 2 ^ 32) (hk : k < 2 ^ 64) :
    (s.poise h k).slot = slotAt s.params.order h k := by
  have hcnt : (s.poise h k).outcnt.toNat = k := by
    rw [State.poise, BitVec.toNat_ofNat, Nat.mod_eq_of_lt hk]
  have hbusy : (s.poise h k).phase = .busy := rfl
  rw [State.slot, if_pos hbusy, State.poise_framedLen s k hh, hcnt]
  rfl

/-- The operation that owns the poised offset is the one fetched. -/
theorem fetch_poise (s : State) {h k : Nat} {i : Instr} {t : Slot} (hh : h < 2 ^ 32) (hk : k < 2 ^ 64)
    (ht : slotAt s.params.order h k = t) (hi : t.owner h = some i) :
    ∃ s', fetch (s.poise h k) = .instr i s' := by
  have ho : (s.poise h k).owner = some i := by
    rw [State.owner, State.poise_slot s hh hk, State.poise_framedLen s k hh, ht, hi]
  have hp : (s.poise h k).program = .answer .accept :: s.program := rfl
  exact ⟨_, fetch_of_answer hp ho⟩

theorem idatStart_le (order : ChunkOrder) : idatStart order ≤ 46 := by cases order <;> decide

/-- A stream offset of the IDAT payload, from the start of OUT (R281). -/
theorem slotAt_stream {order : ChunkOrder} {n o : Nat} (ho : o < streamSize n) :
    slotAt order n (idatStart order + (8 + o)) = .stream (streamSlot n o) := by
  rw [slotAt_idat (by omega), idatSlot_payload ho]

/-- Settles O7: a word is decoded from the placed write, and a record owns the offset it is poised at. -/
theorem placedInstructionIsFetched : Obligations.PlacedInstructionIsFetched := by
  intro i s hi
  have hstart := idatStart_le s.params.order
  cases i with
  | nop | encode | predict | reservedOp3 | formatGray | formatGrayAlpha | formatRGB | formatRGBA =>
    exact ⟨s, fetch_placeInstr_of_busWrite s hi rfl⟩
  | signature => exact fetch_poise s (by omega) (by omega) (slotAt_signature (by omega)) rfl
  | chunkIHDR => exact fetch_poise s (by omega) (by omega) (slotAt_ihdr (j := 0) (by omega)) rfl
  | chunkIDAT =>
    exact fetch_poise s (by omega) (by omega)
      ((slotAt_idat (j := 0) (by omega)).trans (idatSlot_length (by omega))) rfl
  | chunkSRGB =>
    have hsrgb : srgbStart (Machine.streamSize 0) s.params.order ≤ 56 := by
      cases s.params.order <;> decide
    exact fetch_poise s (by omega) (by omega) (slotAt_srgb (j := 0) (by omega)) rfl
  | chunkIEND => exact fetch_poise s (by omega) (by decide) (slotAt_iend (j := 0) (by omega)) rfl
  | zhdr =>
    exact fetch_poise s (by omega) (by omega)
      ((slotAt_stream (o := 0) (by decide)).trans
        (congrArg Slot.stream (streamSlot_zhdr (by omega)))) rfl
  | blkhdrNonfinal =>
    exact fetch_poise s (by omega) (by omega)
      ((slotAt_stream (o := 2) (by decide)).trans
        (congrArg Slot.stream (streamSlot_nonfinal (b := 0) (i := 0) (by decide) (by omega)))) rfl
  | blkhdrFinal m =>
    have hm : m ≤ 65534 := hi
    have hfull : fullBlocks m = 0 := Nat.div_eq_of_lt (by omega)
    have hlast : lastBlock m = m := Nat.mod_eq_of_lt (by omega)
    have hsize : 2 < streamSize m := by rw [streamSize_eq]; omega
    have hslot : streamSlot m 2 = .final 0 := by
      simpa [hfull] using streamSlot_final (n := m) (i := 0) (by omega)
    exact fetch_poise s (by omega) (by omega)
      ((slotAt_stream (o := 2) hsize).trans (congrArg Slot.stream hslot))
      (by rw [Slot.owner, hlast])

/-! ## The stream header (R101, R201) -/

/-- Settles O32: the offset is the header's in the stream, and ZHDR's unit moves the CRC alone. -/
theorem streamHeaderByteIsDelivered : Obligations.StreamHeaderByteIsDelivered := by
  intro s i start hoff hi hidat hsrgb
  have hstart : start = idatStart s.params.order := by
    cases ho : s.params.order with
    | idatFirst => exact hidat ho
    | srgbFirst => exact hsrgb ho
  have hsize : i < s.streamSize := by
    have := streamSize_eq s.framedLen
    simp only [State.streamSize]; omega
  have hslot : s.slot = .stream (.zhdr i) := by
    rw [Offering.stream (hstart ▸ hoff) hsize, streamSlot_zhdr hi]
  refine ⟨({ s with crc := crcUpdate s.crc (byteOf [s.params.cmf, s.params.flg] i) } : State).deliver
      (byteOf [s.params.cmf, s.params.flg] i), _, ?_, rfl, (TouchesInternals.crc s _).delivered _, ?_⟩
  · simp only [exec, execZhdr, hslot, emit_of_accept hoff.accepted, State.crcAdvance_eq]
  · rw [State.deliver_eq]
    exact ⟨rfl, fun _ => rfl, rfl⟩

end Sys2Proof.Machine

/-! PROOFS. Commands (40_commands): what a step runs, and what each command answers. -/

namespace Sys2Proof.Machine

/-! ## What the next step runs (R95, R130, R135, R282) -/

/-- A 32-bit write that decodes is fetched as its instruction (R130, R135). -/
theorem fetch_of_write {s : State} {off : Nat} {w : Word} {rest : List HostOp} {i : Instr}
    (hp : s.program = .write off .word w :: rest) (hd : decode (.busWrite off w) = .ok i) :
    fetch s = .instr i { s with program := rest } := by
  simp [fetch, hp, hd]

/-- A WAIT at an offered byte fetches its owner under the policy's answer, and stays (R95, log 13). -/
theorem fetch_of_wait {s : State} {rest : List HostOp} {i : Instr}
    (hp : s.program = .wait :: rest) (ho : s.owner = some i) :
    fetch s = .instr i { s with answer := some (s.policy.answer s.outcnt.toNat) } := by
  simp [fetch, hp, ho]

/-- Settles O6: a step runs what is fetched, and the three fetches are these. -/
theorem stepRunsTheDecodedInstruction : Obligations.StepRunsTheDecodedInstruction :=
  ⟨fun _ _ _ _ _ hp hd => step_of_instr (fetch_of_write hp hd),
    fun _ _ _ _ hp ho => step_of_instr (fetch_of_answer hp ho),
    fun _ _ _ hp ho => step_of_instr (fetch_of_wait hp ho)⟩

/-- A CMD write runs the command it decodes to (R130). -/
theorem step_of_cmdWrite {s : State} {w : Word} {rest : List HostOp}
    (hp : s.program = .write 0x00 .word w :: rest) :
    step s = exec (decodeCmd w) { s with program := rest } :=
  step_of_instr (fetch_of_write hp (decode_cmdWord w))

/-- A FORMAT write runs the format it decodes to (R135). -/
theorem step_of_formatWrite {s : State} {w : Word} {rest : List HostOp}
    (hp : s.program = .write 0x04 .word w :: rest) :
    step s = exec (decodeFormat w) { s with program := rest } :=
  step_of_instr (fetch_of_write hp (decode_formatWord w))

/-! ## Commands without an effect (R133, R134) -/

/-- A CMD word whose OP is 0 or 3 has no effect (R133). -/
theorem exec_decodeCmd_of_noOp {w : Word} (h : w.toNat % 4 = 0 ∨ w.toNat % 4 = 3) (s : State) :
    exec (decodeCmd w) s = .next s := by
  rcases h with h | h
  · simp only [decodeCmd, h, exec, execNop]
  · simp only [decodeCmd, h, exec, execReservedOp3]

/-- While BUSY no CMD word has an effect (R134). -/
theorem exec_decodeCmd_of_busy {s : State} (hb : s.phase = .busy) (w : Word) :
    exec (decodeCmd w) s = .next s := by
  rcases low_cases w with h | h | h | h
  · exact exec_decodeCmd_of_noOp (.inl h) s
  · simp only [decodeCmd, h, exec, execEncode, if_pos hb]
  · simp only [decodeCmd, h, exec, execPredict, if_pos hb]
  · exact exec_decodeCmd_of_noOp (.inr h) s

/-- Settles O9: the two rows' meaning is the state they run in. -/
theorem nopAndReservedOp3HaveNoEffect : Obligations.NopAndReservedOp3HaveNoEffect :=
  ⟨fun _ _ => ⟨rfl, rfl⟩, fun _ s h => exec_decodeCmd_of_noOp h s⟩

/-- Settles O10: the step runs the command, which BUSY makes ineffective. -/
theorem commandWhileBusyIsIgnored : Obligations.CommandWhileBusyIsIgnored := by
  intro s w rest hb hp
  exact ⟨(step_of_cmdWrite hp).trans (exec_decodeCmd_of_busy (s := { s with program := rest }) hb w),
    exec_decodeCmd_of_busy hb w⟩

/-! ## The accept steps of PREDICT and ENCODE (R131, R132) -/

/-- Outside BUSY a PREDICT completes (R132). -/
theorem exec_predict_of_quiet {s : State} (hb : s.phase ≠ .busy) (rsv : Nat) :
    exec (.predict rsv) s = .next (s.accept.setStatus .done .none) := by
  rw [exec, execPredict, if_neg hb]

/-- VALIDATE fails: CONTRACT_VIOLATION, whatever SIZECHECK would say (R270, R302, R306). -/
theorem exec_encode_of_mismatch {s : State} (hb : s.phase ≠ .busy) (h : ¬ s.ShapeMatches) (rsv : Nat) :
    exec (.encode rsv) s = .next (s.accept.raiseError .contractViolation 0) := by
  rw [exec, execEncode, if_neg hb, if_pos h]

/-- SIZECHECK alone fails: LENGTH_OVERFLOW (R271, R304, R306). -/
theorem exec_encode_of_overflow {s : State} (hb : s.phase ≠ .busy) (h : s.ShapeMatches)
    (hover : ¬ s.PayloadFits) (rsv : Nat) :
    exec (.encode rsv) s = .next (s.accept.raiseError .lengthOverflow 0) := by
  rw [exec, execEncode, if_neg hb, if_neg (not_not.2 h), if_pos hover]

/-- Both checks pass: emission starts (R131). -/
theorem exec_encode_of_valid {s : State} (hb : s.phase ≠ .busy) (h : s.ShapeMatches)
    (hfits : s.PayloadFits) (rsv : Nat) : exec (.encode rsv) s = .next s.accept.startEmission := by
  rw [exec, execEncode, if_neg hb, if_neg (not_not.2 h), if_neg (not_not.2 hfits)]

/-- Settles O11: the accept step writes OUTCNT, SINKCODE, PRED and STATUS alone. -/
theorem predictCompletesInItsAcceptStep : Obligations.PredictCompletesInItsAcceptStep := fun rsv s hb =>
  ⟨_, exec_predict_of_quiet hb rsv, rfl, rfl, s.accept_pred_toNat, rfl, rfl, fun _ => rfl, rfl⟩

/-- Settles O12: the two hypotheses are ENCODE's two checks, and the last lines of the accept step write the
internal registers. -/
theorem encodeStartsEmission : Obligations.EncodeStartsEmission := fun rsv s hb hshape hfits =>
  ⟨_, exec_encode_of_valid hb hshape hfits rsv, rfl, rfl, s.accept_pred_toNat, rfl, rfl, rfl, rfl, rfl,
    rfl, rfl, rfl, rfl, rfl, ⟨rfl, rfl, rfl, rfl, rfl⟩, fun _ => rfl, ⟨rfl, rfl, rfl⟩, rfl, rfl⟩

/-- Settles O13: a failed check raises its error in the accepted state, VALIDATE's before SIZECHECK's. -/
theorem encodeErrorsLeaveTheSinkUntouched : Obligations.EncodeErrorsLeaveTheSinkUntouched := by
  intro rsv s hb hfail
  by_cases hshape : s.ShapeMatches
  · have hover : ¬ s.PayloadFits := hfail.elim (absurd hshape) Nat.not_le_of_lt
    exact ⟨_, exec_encode_of_overflow hb hshape hover rsv, rfl, rfl, s.accept_pred_toNat, rfl,
      absurd hshape, fun _ => rfl, fun _ => rfl, rfl, rfl⟩
  · exact ⟨_, exec_encode_of_mismatch hb hshape rsv, rfl, rfl, s.accept_pred_toNat, rfl,
      fun _ => rfl, fun h => absurd h hshape, fun _ => rfl, rfl, rfl⟩

end Sys2Proof.Machine

/-! PROOFS. A whole ENCODE under a sink that accepts (R279, R285, R286, R343): the state after `k` accepted
bytes, kept by one answer and so by any number of them. It needs of the first state what R343 asks of the
host, and not the machine's invariant. -/

namespace Sys2Proof.Machine

/-! ## Sameness of configuration -/

theorem SameConfig.trans {s t u : State} (h : SameConfig s t) (h' : SameConfig t u) :
    SameConfig s u := by
  obtain ⟨hparams, hsel, hw, hh, hlen⟩ := h
  obtain ⟨hparams', hsel', hw', hh', hlen'⟩ := h'
  exact ⟨hparams'.trans hparams, hsel'.trans hsel, hw'.trans hw, hh'.trans hh, hlen'.trans hlen⟩

/-- OUT is made from the configuration and the pixel buffer alone (R280). -/
theorem SameConfig.out_eq {s t : State} (h : SameConfig s t) (pixels : List Byte) :
    t.out pixels = s.out pixels := by
  obtain ⟨hparams, hsel, hw, hh, -⟩ := h
  rw [State.out, State.out, hparams, hsel, hw, hh]

/-! ## What a step on the sink's answer leaves of the units and of the host -/

/-- The host agent plays no part in where the units stand. -/
theorem UnitsAt.withHost {s : State} {pixels : List Byte} {k : Nat} (h : UnitsAt s pixels k)
    (p : List HostOp) (a : Option SinkAnswer) : UnitsAt { s with program := p, answer := a } pixels k :=
  ⟨⟨h.packing.fidx, h.packing.row, h.packing.col, h.packing.adler, h.packing.block⟩, h.crc⟩

/-- Delivering a byte moves no unit (R285). -/
theorem UnitsAt.deliver {s : State} {pixels : List Byte} {k : Nat} (h : UnitsAt s pixels k) (b : Byte) :
    UnitsAt (s.deliver b) pixels k := by
  rw [State.deliver_eq]
  exact ⟨⟨h.packing.fidx, h.packing.row, h.packing.col, h.packing.adler, h.packing.block⟩, h.crc⟩

/-- A delivered byte leaves the host agent where it was (R285). -/
theorem TouchesInternals.deliver_host {s u : State} (h : TouchesInternals s u) (b : Byte) :
    SameHost s (u.deliver b) := by
  obtain ⟨_, _, _, _, _, _, _, _, rfl⟩ := h
  rw [State.deliver_eq]
  exact ⟨rfl, rfl, rfl⟩

/-- The first values of R131 are where the closed form has the units before the first byte. -/
theorem unitsAt_startEmission (s : State) (pixels : List Byte) :
    UnitsAt s.accept.startEmission pixels 0 := by
  obtain ⟨hf, hb⟩ := framedAt_before (order := s.params.order) (n := s.framedLen) (k := 0)
    (Nat.zero_le _)
  refine ⟨?_, nofun⟩
  show Packing _ _ (framedAt s.params.order s.framedLen 0) (blockAt s.params.order s.framedLen 0)
  rw [hf, hb]
  exact ⟨rfl, (Nat.zero_div _).symm, (Nat.zero_mod _).symm, rfl, rfl⟩

/-- What an accepting answer does in a state `s` that runs an ENCODE over `pixels` (R285): it delivers
`b`, the byte of OUT at OUTCNT, and of the rest of the core the units alone move. -/
structure Accepted (s u : State) (pixels : List Byte) (b : Byte) (rest : List HostOp) : Prop where
  byte : (s.out pixels)[s.outcnt.toNat]? = some b
  delivered : Delivered s u b
  config : SameConfig s u
  pixmem : u.pixmem = s.pixmem
  sinkcode : u.sinkcode = s.sinkcode
  pred : u.pred = s.pred
  reads : u.reads = s.reads
  program : u.program = rest
  units : UnitsAt u pixels (s.outcnt.toNat + 1)

/-- While an ENCODE runs the operation that owns OUTCNT takes the sink's ACCEPT (R282, R285). -/
theorem Running.step_accept {s : State} {pixels : List Byte} {rest : List HostOp} (h : Running s)
    (hb : s.phase = .busy) (hbuf : s.pixels = some pixels) (hunits : UnitsAt s pixels s.outcnt.toNat)
    (hp : s.program = .answer .accept :: rest) :
    ∃ u b, step s = .next u ∧ Accepted s u pixels b rest := by
  obtain ⟨i, hi⟩ := owner_of_busy hb h.inside
  have hrun : Running { s with program := rest, answer := some .accept } :=
    ⟨h.shape, h.fits, h.inside, h.pred⟩
  obtain ⟨b, adv, hexec, hbyte, htouch, hnext⟩ :=
    owner_emitsOut (s := { s with program := rest, answer := some .accept }) hbuf hrun
      (hunits.withHost rest (some .accept)) hi
  obtain ⟨hsink, houtcnt, hanswer, hlast, hmore⟩ := htouch.delivered b
  obtain ⟨hconfig, hpixmem, hsinkcode, hpred⟩ := htouch.deliver_frame b
  obtain ⟨hprogram, -, hreads⟩ := htouch.deliver_host b
  exact ⟨_, b, (step_of_instr (fetch_of_answer hp hi)).trans (hexec.trans (emit_of_accept rfl)),
    { byte := hbyte
      delivered := ⟨hsink, houtcnt, hanswer, hlast, hmore⟩
      config := hconfig
      pixmem := hpixmem
      sinkcode := hsinkcode
      pred := hpred
      reads := hreads
      program := hprogram
      units := hnext.deliver b }⟩

/-! ## The state after `k` accepted bytes -/

/-- `t` is where an ENCODE accepted in `s` stands when the sink has accepted `k` of its bytes: they are
the first `k` of OUT, and the core offers the next one or, behind the last, is DONE. -/
structure Emitted (s : State) (pixels : List Byte) (k : Nat) (t : State) : Prop where
  config : SameConfig s t
  pixmem : t.pixmem = s.pixmem
  reads : t.reads = s.reads
  sinkcode : t.sinkcode = 0
  cause : t.cause = .none
  pred : t.pred.toNat = s.outLen
  outcnt : t.outcnt.toNat = k
  sink : t.sink = s.sink ++ (s.out pixels).take k
  more : k < s.outLen → t.phase = .busy ∧ Running t ∧ UnitsAt t pixels k
  last : k = s.outLen → t.phase = .done

/-- ENCODE's accept step in a ready state leaves the core before the first byte (R131). -/
theorem Ready.emitted_zero {s : State} {pixels : List Byte} (h : Ready s pixels) (p : List HostOp) :
    Emitted s pixels 0 { s with program := p }.accept.startEmission := by
  have hpos : 0 < s.outLen := Nat.lt_of_lt_of_le (by decide : 0 < 70) (Nat.le_add_right _ _)
  have hpred := s.accept_pred_toNat
  exact
    { config := ⟨rfl, rfl, rfl, rfl, rfl⟩
      pixmem := rfl
      reads := rfl
      sinkcode := rfl
      cause := rfl
      pred := hpred.trans s.outLen_eq_predictedSize.symm
      outcnt := rfl
      sink := (List.append_nil s.sink).symm
      more := fun _ => ⟨rfl, ⟨h.shape, h.fits, hpos, hpred⟩, unitsAt_startEmission _ pixels⟩
      last := fun h0 => absurd h0 hpos.ne }

/-- The command still reads the buffer it was accepted with (R34, R62). -/
theorem Emitted.pixels_eq {s t : State} {pixels : List Byte} {k : Nat} (h : Emitted s pixels k t) :
    t.pixels = s.pixels := by
  obtain ⟨-, -, -, -, hlen⟩ := h.config
  rw [State.pixels, State.pixels, h.pixmem, hlen]

/-- One accepted byte more: the next byte of OUT, and the last one ends the command (R285, R286). -/
theorem Emitted.step_accept {s t : State} {pixels : List Byte} {k : Nat} {rest : List HostOp}
    (h : Emitted s pixels k t) (hbuf : s.pixels = some pixels) (hk : k < s.outLen)
    (hp : t.program = .answer .accept :: rest) :
    ∃ u, step t = .next u ∧ Emitted s pixels (k + 1) u ∧ u.program = rest := by
  obtain ⟨hb, hrun, hunits⟩ := h.more hk
  obtain rfl := h.outcnt
  obtain ⟨u, b, hstep, hacc⟩ := hrun.step_accept hb (h.pixels_eq.trans hbuf) hunits hp
  obtain ⟨hsink, houtcnt, -, hlast, hmore⟩ := hacc.delivered
  have hcount : u.outcnt.toNat = t.outcnt.toNat + 1 := houtcnt ▸ hrun.outcnt_succ
  have hbyte : (s.out pixels)[t.outcnt.toNat]? = some b := h.config.out_eq pixels ▸ hacc.byte
  rw [hcount, h.config.outLen_eq] at hlast hmore
  have hcause : u.cause = .none := by
    by_cases hend : t.outcnt.toNat + 1 = s.outLen
    · exact (hlast hend).2
    · exact (hmore hend).2.trans h.cause
  refine ⟨u, hstep, ?_, hacc.program⟩
  exact
    { config := h.config.trans hacc.config
      pixmem := hacc.pixmem.trans h.pixmem
      reads := hacc.reads.trans h.reads
      sinkcode := hacc.sinkcode.trans h.sinkcode
      cause := hcause
      pred := hacc.pred ▸ h.pred
      outcnt := hcount
      sink := by rw [hsink, take_succ_of_getElem? hbyte, ← List.append_assoc, ← h.sink]
      more := fun hlt => ⟨(hmore hlt.ne).1.trans hb,
        hrun.of_sameConfig hacc.config hacc.pred (by rwa [hcount, h.config.outLen_eq]), hacc.units⟩
      last := fun hend => (hlast hend).1 }

/-- Any number of accepted bytes more. -/
theorem Emitted.runFor_accept {s : State} {pixels : List Byte} (hbuf : s.pixels = some pixels) (j : Nat)
    {k : Nat} {t : State} {rest : List HostOp} (h : Emitted s pixels k t) (hk : k + j ≤ s.outLen)
    (hp : t.program = List.replicate j (.answer .accept) ++ rest) :
    ∃ u, runFor j t = .next u ∧ Emitted s pixels (k + j) u ∧ u.program = rest := by
  induction j generalizing k t with
  | zero => exact ⟨t, rfl, h, hp⟩
  | succ j ih =>
    obtain ⟨u, hstep, hu, hup⟩ := h.step_accept hbuf (by omega) hp
    obtain ⟨v, hrun, hv, hvp⟩ := ih hu (by omega) hup
    refine ⟨v, (runFor_succ_of_next hstep j).trans hrun, ?_, hvp⟩
    rwa [Nat.add_assoc, Nat.add_comm 1 j] at hv

/-- An ENCODE in a ready state is accepted and starts emission (R131, R343). -/
theorem Ready.step_encode {s : State} {pixels : List Byte} {rest : List HostOp} (h : Ready s pixels)
    (hp : s.program = opEncode :: rest) :
    step s = .next { s with program := rest }.accept.startEmission := by
  rw [step_of_cmdWrite hp]
  exact exec_encode_of_valid (s := { s with program := rest }) h.quiet h.shape h.fits 0

/-- An ENCODE in a ready state, and `k` answers that accept. -/
theorem Ready.runFor_encode {s : State} {pixels : List Byte} (h : Ready s pixels) {k : Nat}
    {rest : List HostOp} (hk : k ≤ s.outLen)
    (hp : s.program = opEncode :: (List.replicate k (.answer .accept) ++ rest)) :
    ∃ t, runFor (1 + k) s = .next t ∧ Emitted s pixels k t ∧ t.program = rest := by
  obtain ⟨t, hrun, ht, htp⟩ :=
    (h.emitted_zero _).runFor_accept h.buffer k (rest := rest) (by omega) rfl
  rw [Nat.zero_add] at ht
  rw [Nat.add_comm, runFor_succ_of_next (h.step_encode hp)]
  exact ⟨t, hrun, ht, htp⟩

/-- Settles O55, by induction on the accepted bytes: each one is the next byte of OUT, and behind the last
the command is DONE. -/
theorem encodeEmitsTheWholeFile : Obligations.EncodeEmitsTheWholeFile := by
  intro s pixels rest h hp
  obtain ⟨t, hrun, ht, htp⟩ := h.runFor_encode (Nat.le_refl _) hp
  have hlen : (s.out pixels).length = s.outLen :=
    State.out_length (State.pixels_length h.buffer h.shape)
  have hsink : t.sink = s.sink ++ s.out pixels := by rw [ht.sink, ← hlen, List.take_length]
  exact ⟨t, hrun, hsink, ht.last rfl, ht.cause, ht.sinkcode, ht.outcnt.trans hlen.symm,
    ht.pred.trans hlen.symm, ht.config, fun a => congrArg (Memory.read · a) ht.pixmem, htp, ht.reads⟩

end Sys2Proof.Machine

/-! PROOFS. Registers (R22, R135 to R137): what a configuration write sets, and what a read returns. -/

namespace Sys2Proof.Machine

/-! ## Values of the registers -/

/-- Two words make a 64-bit register (R25). -/
theorem append_word_toNat (hi lo : Word) : (hi ++ lo).toNat = hi.toNat * 2 ^ 32 + lo.toNat := by
  rw [BitVec.toNat_append, ← Nat.shiftLeft_add_eq_or_of_lt lo.isLt, Nat.shiftLeft_eq]

/-- The word of a register that begins at bit `i` (R22). -/
theorem extract_word_toNat {n : Nat} (x : BitVec n) (i : Nat) :
    (x.extractLsb' i 32).toNat = x.toNat / 2 ^ i % 2 ^ 32 := by
  rw [BitVec.extractLsb'_toNat, Nat.shiftRight_eq_div_pow]

/-- The topmost word is cut at no bit. -/
theorem extract_top_word_toNat {i : Nat} (x : BitVec (i + 32)) :
    (x.extractLsb' i 32).toNat = x.toNat / 2 ^ i := by
  rw [extract_word_toNat, Nat.mod_eq_of_lt]
  exact Nat.div_lt_of_lt_mul (Nat.pow_add 2 i 32 ▸ x.isLt)

/-- FORMAT reads as SEL (R24). -/
theorem ColorFormat.code_toNat (f : ColorFormat) : (BitVec.ofNat 32 f.code).toNat = f.code := by
  cases f <;> rfl

/-! ## Configuration writes (R135, R136) -/

/-- A FORMAT word selects the format of its low field (R91). -/
theorem exec_decodeFormat_eq (w : Word) (s : State) :
    ∃ f : ColorFormat, f.code = w.toNat % 4 ∧ exec (decodeFormat w) s = .next (s.selectFormat f) := by
  rcases low_cases w with h | h | h | h
  · exact ⟨.gray, h.symm, by simp only [decodeFormat, h, exec, execFormatGray]⟩
  · exact ⟨.grayAlpha, h.symm, by simp only [decodeFormat, h, exec, execFormatGrayAlpha]⟩
  · exact ⟨.rgb, h.symm, by simp only [decodeFormat, h, exec, execFormatRGB]⟩
  · exact ⟨.rgba, h.symm, by simp only [decodeFormat, h, exec, execFormatRGBA]⟩

theorem State.selectFormat_of_busy {s : State} (hb : s.phase = .busy) (f : ColorFormat) :
    s.selectFormat f = s := if_pos hb

theorem State.selectFormat_of_quiet {s : State} (hb : s.phase ≠ .busy) (f : ColorFormat) :
    s.selectFormat f = { s with sel := f } := if_neg hb

/-- While BUSY no FORMAT word has an effect (R136). -/
theorem exec_decodeFormat_of_busy {s : State} (hb : s.phase = .busy) (w : Word) :
    exec (decodeFormat w) s = .next s := by
  obtain ⟨f, -, hexec⟩ := exec_decodeFormat_eq w s
  rw [hexec, State.selectFormat_of_busy hb]

/-- A word written to a register other than CMD and FORMAT, with what it makes of the state (R135). -/
theorem step_of_writeReg {s t : State} {off : Nat} {v : Word} {rest : List HostOp} {r : Reg}
    (hp : s.program = .write off .word v :: rest) (hr : regAt off = some r) (hcmd : off ≠ 0x00)
    (hformat : off ≠ 0x04) (ht : { s with program := rest }.writeReg r v = t) : step s = .next t := by
  rw [step_of_registerWrite hp hcmd hformat, ← ht]
  simp only [hostWrite, accessReg, hr]

/-- Settles O16: FORMAT is an instruction, and the other four are plain register writes. -/
theorem configurationWriteSetsItsRegister : Obligations.ConfigurationWriteSetsItsRegister := by
  intro s off v rest hb hp
  refine ⟨?_, ?_, ?_, ?_, ?_⟩ <;> rintro rfl
  · obtain ⟨f, hf, hexec⟩ := exec_decodeFormat_eq v { s with program := rest }
    rw [State.selectFormat_of_quiet (s := { s with program := rest }) hb] at hexec
    exact ⟨_, (step_of_formatWrite hp).trans hexec, f.code_toNat.trans hf, rfl, rfl⟩
  · exact step_of_writeReg hp rfl (by decide) (by decide) (if_neg hb)
  · exact step_of_writeReg hp rfl (by decide) (by decide) (if_neg hb)
  · refine ⟨_, step_of_writeReg hp rfl (by decide) (by decide) (if_neg hb), ?_, rfl, rfl⟩
    rw [append_word_toNat, extract_top_word_toNat (i := 32)]
  · refine ⟨_, step_of_writeReg hp rfl (by decide) (by decide) (if_neg hb), ?_, rfl, rfl⟩
    rw [append_word_toNat, extract_word_toNat, Nat.pow_zero, Nat.div_one]

/-- Settles O17: while BUSY neither a FORMAT word nor a plain register write has an effect. -/
theorem configurationWriteWhileBusyIsIgnored : Obligations.ConfigurationWriteWhileBusyIsIgnored := by
  intro s off v rest hb hoff hp
  refine ⟨?_, exec_decodeFormat_of_busy hb v⟩
  rcases hoff with rfl | rfl | rfl | rfl | rfl
  · exact (step_of_formatWrite hp).trans (exec_decodeFormat_of_busy (s := { s with program := rest }) hb v)
  all_goals
    exact step_of_writeReg hp rfl (by decide) (by decide)
      (State.writeReg_of_busy (s := { s with program := rest }) hb _ v)

/-! ## Register reads (R137) -/

/-- The sixteen offsets of the register space and the registers there (R22). -/
def registerOffsets : List (Nat × Reg) :=
  [(0x00, .cmd), (0x04, .format), (0x08, .width), (0x0C, .height), (0x10, .pixlenLo), (0x14, .pixlenHi),
    (0x18, .status), (0x1C, .sinkcode), (0x20, .outcntLo), (0x24, .outcntHi), (0x28, .pred0),
    (0x2C, .pred1), (0x30, .pred2), (0x34, .pred3), (0x38, .reserved), (0x3C, .reserved)]

theorem regAt_registerOffsets : ∀ p ∈ registerOffsets, regAt p.1 = some p.2 := by decide

/-- The register map is what the registers read as (R22, R137). -/
theorem registerMap_eq (s : State) :
    registerMap s = registerOffsets.map fun p => (p.1, (s.readReg p.2).toNat) := by
  have hstatus : (statusWord s.phase s.cause).toNat = s.cause.code * 16 + s.phase.code := by
    cases s.phase <;> cases s.cause <;> rfl
  simp only [registerMap, registerOffsets, List.map_cons, List.map_nil, State.readReg,
    ColorFormat.code_toNat, hstatus, extract_top_word_toNat (i := 32), extract_top_word_toNat (i := 96),
    extract_word_toNat, Nat.pow_zero, Nat.div_one]
  rfl

/-- A read is no instruction: it acts through the host port, in any state. -/
theorem step_of_read {s : State} {off : Nat} {size : AccessSize} {rest : List HostOp}
    (hp : s.program = .read off size :: rest) :
    step s = hostRead off size { s with program := rest } := by
  have hf : fetch s = .access (.read off size) { s with program := rest } := by simp [fetch, hp]
  exact step_of_access hf

/-- Settles O19: an entry of the register map is the value its register reads as. -/
theorem registerReadReturnsItsValue : Obligations.RegisterReadReturnsItsValue := by
  intro s off value rest hmap hp
  rw [registerMap_eq, List.mem_map] at hmap
  obtain ⟨⟨off', r⟩, hmem, heq⟩ := hmap
  obtain ⟨rfl, rfl⟩ := Prod.mk.inj heq
  have hr : regAt off' = some r := regAt_registerOffsets _ hmem
  refine ⟨s.readReg r, rfl, ?_⟩
  rw [step_of_read hp]
  simp only [hostRead, accessReg, hr]
  cases r <;> rfl

end Sys2Proof.Machine

/-! PROOFS. Sizes (41_size_predictor): the predictor's closed form and its largest value (R165), and the
length law (R166). -/

namespace Sys2Proof.Machine

theorem predictedSize_eq (f : ColorFormat) (w h : Nat) :
    predictedSize f w h = 81 + framedLen f w h + 5 * (framedLen f w h / 65535) := by
  rw [predictedSize_eq_streamSize, streamSize_eq, fullBlocks]
  omega

/-- The predicted size grows with the FramedBuffer. -/
theorem predictedSize_le_of_framedLen_le {f f' : ColorFormat} {w w' h h' : Nat}
    (hn : framedLen f w h ≤ framedLen f' w' h') : predictedSize f w h ≤ predictedSize f' w' h' := by
  have hq : framedLen f w h / 65535 ≤ framedLen f' w' h' / 65535 := Nat.div_le_div_right hn
  rw [predictedSize_eq, predictedSize_eq]
  omega

/-- No shape of 32-bit sides has a longer FramedBuffer than the largest RGBA one (R162). -/
theorem framedLen_le_largest (f : ColorFormat) (w h : Word) :
    framedLen f w.toNat h.toNat ≤ framedLen .rgba 4294967295 4294967295 := by
  have hw : w.toNat ≤ 4294967295 := Nat.le_of_lt_succ w.isLt
  have hh : h.toNat ≤ 4294967295 := Nat.le_of_lt_succ h.isLt
  exact Nat.mul_le_mul hh (Nat.succ_le_succ (Nat.mul_le_mul hw f.channels_le))

/-- Settles O42: the largest RGBA shape meets the bound. -/
theorem predictedSizeClosedForm : Obligations.PredictedSizeClosedForm := by
  intro f w h
  have hlargest : predictedSize .rgba 4294967295 4294967295 = 73792605850206011461 := by decide
  exact ⟨predictedSize_eq f w.toNat h.toNat,
    hlargest ▸ predictedSize_le_of_framedLen_le (framedLen_le_largest f w h)⟩

/-- A core whose parameters and registers give OUT its operands has OUT's length predicted (R166). -/
theorem out_length (p : Params) {f : ColorFormat} {w h : Word} {pixels : List Byte}
    (hp : pixels.length = pixelBytes f w.toNat h.toNat) :
    (out p f w h pixels).length = predictedSize f w.toNat h.toNat :=
  let s : State := { State.reset with params := p, sel := f, width := w, height := h }
  (State.out_length (s := s) hp).trans s.outLen_eq_predictedSize

/-- Settles O43: rows, stored blocks and chunks have the lengths the predictor counts. -/
theorem outputLengthIsThePredictedSize : Obligations.OutputLengthIsThePredictedSize :=
  fun p _ _ _ _ hp => ⟨frame_length hp, pack_length p, out_length p hp⟩

end Sys2Proof.Machine

/-! PROOFS. The framer (42_scanline_framer): random access into the FramedBuffer (R183), and the walk of
FRAMER_NEXT (R184). -/

namespace Sys2Proof.Machine

/-! ## Random access (R183) -/

theorem fbyte_of_col_zero {m : List Host.Cell} {st k : Nat} (hcol : k % (st + 1) = 0) :
    fbyte m st k = some tagByte :=
  if_pos hcol

theorem fbyte_of_col_ne_zero {m : List Host.Cell} {st k : Nat} (hcol : k % (st + 1) ≠ 0) :
    fbyte m st k = Memory.read m (framedAddr st (k / (st + 1)) (k % (st + 1))) :=
  if_neg hcol

/-- Settles O44: the tag column and the pixel columns are the two cases of a framed byte. -/
theorem framedByteIsRandomAccess : Obligations.FramedByteIsRandomAccess :=
  fun _ _ _ _ _ _ hbuf hk => ⟨fbyte_eq_frame hbuf hk, fbyte_of_col_zero, fbyte_of_col_ne_zero⟩

/-! ## The walk (R184) -/

/-- A counter below its register's largest value counts on without wrapping. -/
theorem toNat_add_one_of_lt {n : Nat} {x : BitVec n} (h : x.toNat + 1 < 2 ^ n) :
    (x + 1).toNat = x.toNat + 1 := by
  have hone : (1 : BitVec n).toNat = 1 := Nat.mod_eq_of_lt (show 1 < 2 ^ n by omega)
  rw [BitVec.toNat_add_of_lt (by rwa [hone]), hone]

/-- Every framed byte stands in one of HEIGHT rows (R180). -/
theorem State.framedRow_lt_height {s : State} {k : Nat} (hk : k < s.framedLen) :
    k / (s.stride + 1) < s.height.toNat :=
  Nat.div_lt_of_lt_mul (by rwa [Nat.mul_comm])

/-- The row register holds the row after: the last one is below HEIGHT, so it does not wrap. -/
theorem State.framerAdvance_row_toNat {s : State} {k : Nat} (hk : k < s.framedLen)
    (hrow : s.row.toNat = k / (s.stride + 1)) (hcol : s.col.toNat = k % (s.stride + 1)) :
    s.framerAdvance.row.toNat = (k + 1) / (s.stride + 1) := by
  have hlt := State.framedRow_lt_height hk
  have hheight := s.height.isLt
  rw [State.framerAdvance_row, (row_col_next k s.stride).1, hcol]
  split
  · rw [toNat_add_one_of_lt (by omega), hrow]
  · exact hrow

/-- The column register holds the column after: columns end at the stride, so it does not wrap. -/
theorem State.framerAdvance_col_toNat {s : State} {k : Nat} (hcol : s.col.toNat = k % (s.stride + 1)) :
    s.framerAdvance.col.toNat = (k + 1) % (s.stride + 1) := by
  have hlt : k % (s.stride + 1) < s.stride + 1 := Nat.mod_lt _ (Nat.succ_pos _)
  have hstride := s.stride_lt
  rw [State.framerAdvance_col, (row_col_next k s.stride).2, hcol]
  split
  · rfl
  · rw [toNat_add_one_of_lt (by omega), hcol]

theorem State.framerAdvance_fidx_toNat {s : State} {k : Nat} (hfidx : s.fidx.toNat = k)
    (hk : k + 1 < 2 ^ 64) : s.framerAdvance.fidx.toNat = k + 1 := by
  rw [State.framerAdvance_fidx, toNat_add_one_of_lt (hfidx ▸ hk), hfidx]

/-- Settles O45: each register moves to the next byte's quotient, remainder or index. -/
theorem framerNextWalksTheFramedBuffer : Obligations.FramerNextWalksTheFramedBuffer := by
  intro s k hk hfidx hrow hcol
  have hbyte : s.framerByte = fbyte s.pixmem s.stride k := by
    rw [State.framerByte, hrow, hcol, fbyte]
  exact ⟨hbyte, State.framerAdvance_row_toNat hk hrow hcol, State.framerAdvance_col_toNat hcol,
    State.framerAdvance_fidx_toNat hfidx⟩

end Sys2Proof.Machine

/-! PROOFS. The StoredStream (43_stored_block_packager): where its parts stand (R215), its length fields
(R206), and the Adler-32 sums by recurrence and in closed form (R214). -/

namespace Sys2Proof.Machine

/-! ## Layout (R215) -/

/-- A stretch of the StoredStream, from the bytes its slots hold. -/
theorem pack_stretch (p : Params) {framed part : List Byte} {start n : Nat} (hn : part.length = n)
    (hin : start + n ≤ 11 + 65540 * fullBlocks framed.length + lastBlock framed.length)
    (h : ∀ i < n, streamByte p framed (streamSlot framed.length (start + i)) = part[i]?) :
    ((pack p framed).drop start).take n = part := by
  rw [← streamSize_eq_blocks] at hin
  apply List.ext_getElem?
  intro i
  by_cases hi : i < n
  · rw [List.getElem?_take_of_lt hi, List.getElem?_drop, pack_getElem? p framed (by omega), h i hi]
  · rw [List.getElem?_take_eq_none (by omega), List.getElem?_eq_none (by omega)]

theorem pack_streamHeader (p : Params) (framed : List Byte) :
    (pack p framed).take 2 = [p.cmf, p.flg] := rfl

theorem pack_nonfinalHeader (p : Params) {framed : List Byte} {b : Nat}
    (hb : b < fullBlocks framed.length) :
    ((pack p framed).drop (2 + 65540 * b)).take 5 = blockHeader false 65535 :=
  pack_stretch p (blockHeader_length _ _) (by omega) fun i hi => by
    rw [streamSlot_nonfinal hb hi, streamByte]

theorem fullBlock_length {framed : List Byte} {b : Nat} (hb : b < fullBlocks framed.length) :
    (fullBlock framed b).length = 65535 := by
  have := fullBlock_record_length hb
  rw [List.length_append, blockHeader_length] at this
  omega

theorem pack_fullBlock (p : Params) {framed : List Byte} {b : Nat} (hb : b < fullBlocks framed.length) :
    ((pack p framed).drop (7 + 65540 * b)).take 65535 = fullBlock framed b :=
  pack_stretch p (fullBlock_length hb) (by omega) fun i hi => by
    rw [streamSlot_data_full hb hi, streamByte, getElem?_fullBlock hi]

theorem pack_finalHeader (p : Params) (framed : List Byte) :
    ((pack p framed).drop (2 + 65540 * fullBlocks framed.length)).take 5
      = blockHeader true (BitVec.ofNat 16 (lastBlock framed.length)) :=
  pack_stretch p (blockHeader_length _ _) (by omega) fun i hi => by
    rw [streamSlot_final hi, streamByte]

theorem pack_lastBlock (p : Params) (framed : List Byte) :
    ((pack p framed).drop (7 + 65540 * fullBlocks framed.length)).take (lastBlock framed.length)
      = framed.drop (fullBlocks framed.length * 65535) :=
  pack_stretch p (lastBlock_payload_length framed) (by omega) fun i hi => by
    rw [streamSlot_data_last hi, streamByte, List.getElem?_drop]

/-- The trailer's four bytes end the stream (R209). -/
theorem pack_trailer (p : Params) (framed : List Byte) :
    (pack p framed).drop (7 + 65540 * fullBlocks framed.length + lastBlock framed.length)
      = be32 (adler32 framed) := by
  have hlen : ((pack p framed).drop
      (7 + 65540 * fullBlocks framed.length + lastBlock framed.length)).length ≤ 4 := by
    rw [List.length_drop, pack_length, streamSize_eq_blocks]; omega
  rw [← List.take_of_length_le hlen]
  refine pack_stretch p (be32_length _) (by omega) fun i _ => ?_
  rw [streamSlot_trailer, streamByte]

/-- Settles O46: each part of the stream is the stretch of it that its slots hold. -/
theorem streamLayout : Obligations.StreamLayout := by
  intro p framed
  have hend : (pack p framed).length - 4
      = 7 + 65540 * fullBlocks framed.length + lastBlock framed.length := by
    rw [pack_length, streamSize_eq_blocks]; omega
  exact ⟨pack_streamHeader p framed, fun i hi => ⟨pack_nonfinalHeader p hi, pack_fullBlock p hi⟩,
    pack_finalHeader p framed, pack_lastBlock p framed, pack_trailer p framed, hend⟩

/-! ## Length fields (R206) -/

/-- A byte of a complement is the byte's complement to 0xFF. -/
theorem extractLsb'_not_eq_sub (v : BitVec 16) {i : Nat} (hi : i + 8 ≤ 16) :
    (~~~v).extractLsb' i 8 = 0xFF - v.extractLsb' i 8 := by
  have hnot : (~~~v).extractLsb' i 8 = ~~~v.extractLsb' i 8 := by
    ext j hj
    rw [BitVec.getElem_not, BitVec.getElem_extractLsb' hj, BitVec.getElem_extractLsb' hj,
      BitVec.getLsbD_not, decide_eq_true (by omega), Bool.true_and]
  exact hnot.trans (BitVec.allOnes_sub_eq_not _).symm

/-- Settles O5: the complement is taken byte by byte, and of the whole field at once. -/
theorem lengthFieldsAreComplements : Obligations.LengthFieldsAreComplements := by
  intro len
  refine ⟨?_, ?_⟩
  · rw [le16, le16, extractLsb'_not_eq_sub len (by decide), extractLsb'_not_eq_sub len (by decide)]
    rfl
  · rw [BitVec.toNat_not]
    have := len.isLt
    omega

/-! ## The Adler-32 sums (R212 to R214) -/

/-- ADLER_UPDATE as naturals: a sum modulo 65521 fits its 16 bits (R212). -/
theorem adlerUpdate_toNat (ab : BitVec 16 × BitVec 16) (b : Byte) :
    (adlerUpdate ab b).1.toNat = (ab.1.toNat + b.toNat) % 65521
      ∧ (adlerUpdate ab b).2.toNat = (ab.2.toNat + (adlerUpdate ab b).1.toNat) % 65521 := by
  have fits : ∀ x, (BitVec.ofNat 16 (x % 65521)).toNat = x % 65521 := fun x => by
    rw [BitVec.toNat_ofNat, Nat.mod_eq_of_lt (by omega)]
  simp only [adlerUpdate, fits, and_self]

/-- ADLER_OUT joins the sums (R213). -/
theorem adlerOut_toNat (ab : BitVec 16 × BitVec 16) :
    (adlerOut ab).toNat = ab.2.toNat * 65536 + ab.1.toNat := by
  rw [adlerOut, BitVec.toNat_append, ← Nat.shiftLeft_add_eq_or_of_lt ab.1.isLt, Nat.shiftLeft_eq]

/-- The sum of the bytes (R214). -/
def byteSum (bs : List Byte) : Nat := (bs.map BitVec.toNat).sum

/-- The sum of the bytes, each weighted by the number of bytes from it to the end (R214). -/
def weightedSum (bs : List Byte) : Nat :=
  ((List.range bs.length).map fun k => (bs.length - k) * (byteOf bs k).toNat).sum

theorem byteSum_append (bs : List Byte) (x : Byte) : byteSum (bs ++ [x]) = byteSum bs + x.toNat := by
  simp [byteSum]

theorem map_byteOf_range (bs : List Byte) : (List.range bs.length).map (byteOf bs) = bs := by
  apply List.ext_getElem?
  intro i
  by_cases hi : i < bs.length
  · rw [List.getElem?_map, List.getElem?_range hi, Option.map_some, getElem?_eq_byteOf hi]
  · rw [List.getElem?_eq_none (by simpa using hi), List.getElem?_eq_none (by omega)]

/-- One byte more gives every byte before it one more weight. -/
theorem weightedSum_append (bs : List Byte) (x : Byte) :
    weightedSum (bs ++ [x]) = weightedSum bs + byteSum (bs ++ [x]) := by
  have hterm : ∀ k ∈ List.range bs.length,
      (bs.length + 1 - k) * (byteOf (bs ++ [x]) k).toNat
        = (bs.length - k) * (byteOf bs k).toNat + (byteOf bs k).toNat := by
    intro k hk
    have hk := List.mem_range.1 hk
    rw [byteOf, List.getD_append _ _ _ _ hk, Nat.succ_sub hk.le, Nat.succ_mul]
    rfl
  have hlast : byteOf (bs ++ [x]) bs.length = x := by simp [byteOf]
  have hbytes : ((List.range bs.length).map fun k => (byteOf bs k).toNat).sum = byteSum bs := by
    rw [← Function.comp_def BitVec.toNat, ← List.map_map, map_byteOf_range, byteSum]
  simp only [weightedSum, List.length_append, List.length_singleton, List.range_succ, List.map_append,
    List.sum_append, List.map_singleton, List.sum_singleton, List.map_congr_left hterm,
    List.sum_map_add, hbytes, hlast, byteSum_append, Nat.add_sub_cancel_left, Nat.one_mul]
  omega

/-- The closed sums of R214. -/
theorem adlerSums_toNat (bs : List Byte) :
    (adlerSums bs).1.toNat = (1 + byteSum bs) % 65521
      ∧ (adlerSums bs).2.toNat = (bs.length + weightedSum bs) % 65521 := by
  induction bs using List.reverseRecOn with
  | nil => exact ⟨rfl, rfl⟩
  | append_singleton bs x ih =>
    obtain ⟨ha, hb⟩ := ih
    obtain ⟨ha', hb'⟩ := adlerUpdate_toNat (adlerSums bs) x
    rw [adlerSums_append, hb', ha', ha, hb, weightedSum_append, byteSum_append, List.length_append,
      List.length_singleton]
    omega

/-- Settles O48: the recurrence is ADLER_UPDATE's, and the closed sums follow by induction on the
bytes. -/
theorem adlerClosedForm : Obligations.AdlerClosedForm := by
  refine ⟨rfl, fun framed x => adlerSums_append framed x ▸ adlerUpdate_toNat (adlerSums framed) x,
    fun framed => ?_⟩
  obtain ⟨ha, hb⟩ := adlerSums_toNat framed
  refine ⟨ha, hb, ?_⟩
  rw [adler32, adlerOut_toNat, ha, hb]
  rfl

end Sys2Proof.Machine

/-! PROOFS. The packager's operations (43_stored_block_packager), one byte each: block headers, payload and
trailer, each with the units an accepted byte moves (R285). -/

namespace Sys2Proof.Machine

/-! ## Where the offered byte stands -/

/-- The start of the IDAT chunk, as the statements about its bytes give it (R281). -/
theorem eq_idatStart {order : ChunkOrder} {start : Nat} (hidat : order = .idatFirst → start = 33)
    (hsrgb : order = .srgbFirst → start = 46) : start = idatStart order := by
  cases order with
  | idatFirst => exact hidat rfl
  | srgbFirst => exact hsrgb rfl

/-- The slot of a byte offered at stream offset `o` (R215). -/
theorem Offering.streamSlot_eq {s : State} {start o : Nat} (h : Offering s (start + 8 + o))
    (hidat : s.params.order = .idatFirst → start = 33)
    (hsrgb : s.params.order = .srgbFirst → start = 46)
    (ho : o < 11 + 65540 * fullBlocks s.framedLen + lastBlock s.framedLen) :
    s.slot = .stream (streamSlot s.framedLen o) := by
  have hsize : o < s.streamSize := by
    rwa [State.streamSize, streamSize_eq_blocks]
  exact Offering.stream (eq_idatStart hidat hsrgb ▸ h) hsize

/-! ## Block headers (R203 to R205) -/

/-- A block header's byte is delivered and absorbed by the CRC, and the fifth one loads blkRem. -/
theorem blockHeaderByte_delivered {s : State} {i : Instr} {b k : Nat} (ha : s.answer = some .accept)
    (hb : b ≤ fullBlocks s.framedLen)
    (hslot : s.slot = .stream (headerSlot s.framedLen b k)) (hi : s.owner = some i) :
    ∃ t v, exec i s = .next t
      ∧ v = byteOf (blockHeader (decide (b = fullBlocks s.framedLen))
          (BitVec.ofNat 16 (blockLen s.framedLen b))) k
      ∧ Delivered s t v ∧ t.crc = crcUpdate s.crc v
      ∧ t.blkRem.toNat = (if k = 4 then blockLen s.framedLen b else s.blkRem.toNat)
      ∧ SameMemory s t ∧ { t.undoHandshake s with crc := s.crc, blkRem := s.blkRem } = s := by
  have hlen := blockLen_le s.framedLen b
  have hexec := exec_of_header_slot hb hslot hi
  rw [emitBlockHeader, emit_of_accept ha, State.headerAdvance_eq] at hexec
  refine ⟨_, _, hexec, rfl, (TouchesInternals.header s _ _).delivered _, ?_⟩
  rw [State.deliver_eq]
  refine ⟨rfl, ?_, fun _ => rfl, rfl⟩
  show (if k = 4 then BitVec.ofNat 16 (blockLen s.framedLen b) else s.blkRem).toNat = _
  split
  · rw [BitVec.toNat_ofNat, Nat.mod_eq_of_lt (by omega)]
  · rfl

/-- Settles O33: the header of a full block carries its length 65535. -/
theorem nonfinalBlockHeaderIsDelivered : Obligations.NonfinalBlockHeaderIsDelivered := by
  intro s blk i start hoff hi hblk hidat hsrgb
  have hblk : blk < fullBlocks s.framedLen := hblk
  rw [Nat.add_assoc] at hoff
  have hslot := hoff.streamSlot_eq hidat hsrgb (by omega)
  have howner : s.owner = some .blkhdrNonfinal := by
    rw [State.owner, hslot, streamSlot_nonfinal hblk hi, Slot.owner]
  rw [streamSlot_header hblk.le hi] at hslot
  have hbyte := blockHeaderByte_delivered hoff.accepted hblk.le hslot howner
  rwa [blockLen_of_lt hblk, decide_eq_false hblk.ne] at hbyte

/-- Settles O34: the terminal header stands behind the full blocks and carries `n mod 65535`. -/
theorem terminalBlockHeaderIsDelivered : Obligations.TerminalBlockHeaderIsDelivered := by
  intro s i start hoff hi hidat hsrgb
  rw [Nat.add_assoc] at hoff
  have hslot := hoff.streamSlot_eq (o := 2 + 65540 * fullBlocks s.framedLen + i) hidat hsrgb (by omega)
  have howner : s.owner = some (.blkhdrFinal (lastBlock s.framedLen)) := by
    rw [State.owner, hslot, streamSlot_final hi, Slot.owner]
  rw [streamSlot_header le_rfl hi] at hslot
  have hbyte := blockHeaderByte_delivered hoff.accepted le_rfl hslot howner
  rwa [blockLen_last, decide_eq_true rfl] at hbyte

/-! ## Payload bytes (R207) -/

/-- FRAMER_NEXT's byte, as its two columns' cases give it (R182). -/
theorem State.framerByte_eq_some {s : State} {b : Byte} (htag : s.col = 0 → b = 0x00)
    (hpixel : s.col ≠ 0
      → Memory.read s.pixmem (s.row.toNat * s.stride + (s.col.toNat - 1)) = some b) :
    s.framerByte = some b := by
  by_cases hcol : s.col = 0
  · have hzero : s.col.toNat = 0 := congrArg BitVec.toNat hcol
    rw [State.framerByte, framedByte, if_pos hzero, htag hcol, tagByte]
  · exact (State.framerByte_of_col_ne_zero hcol).trans (hpixel hcol)

/-- A payload offset of a stored block, the full ones and the terminal one (R202). -/
theorem blockPayload_of_cases {n b k : Nat}
    (h : (b < fullBlocks n ∧ k < 65535) ∨ (b = fullBlocks n ∧ k < lastBlock n)) :
    b ≤ fullBlocks n ∧ k < blockLen n b := by
  rcases h with ⟨hb, hk⟩ | ⟨rfl, hk⟩
  · exact ⟨hb.le, (blockLen_of_lt hb).symm ▸ hk⟩
  · exact ⟨le_rfl, (blockLen_last n).symm ▸ hk⟩

/-- Settles O35: the framer's byte is emitted, and the units move as `dataAdvance` writes it out. -/
theorem payloadByteIsDelivered : Obligations.PayloadByteIsDelivered := by
  intro s blk i start b hoff hblock hidat hsrgb htag hpixel
  obtain ⟨hblk, hi⟩ := blockPayload_of_cases hblock
  have hin : blk * 65535 + i < s.framedLen := blockPayload_lt hblk hi
  have hsum := fullBlocks_add_lastBlock s.framedLen
  rw [Nat.add_assoc] at hoff
  have hslot := hoff.streamSlot_eq hidat hsrgb (by omega)
  rw [streamSlot_data hblk hi] at hslot
  have hbyte := State.framerByte_eq_some htag hpixel
  have hexec : exec .chunkIDAT s = .next ((s.dataAdvance b).deliver b) := by
    simp only [exec, execChunkIDAT, hslot, emitData, hbyte, emit_of_accept hoff.accepted]
  obtain ⟨ha, hb⟩ := adlerUpdate_toNat (s.adlerA, s.adlerB) b
  refine ⟨_, hexec, (TouchesInternals.data s b).delivered b, ?_⟩
  rw [State.deliver_eq, State.dataAdvance_eq]
  refine ⟨rfl, ha, hb, rfl, fun hcol => ⟨if_pos hcol, if_pos hcol⟩, fun hcol => ⟨if_neg hcol, if_neg hcol⟩,
    rfl, ?_, fun _ => rfl, rfl⟩
  exact if_congr (and_congr_left' sub_eq_zero) rfl rfl

/-! ## The trailer (R209, R213) -/

/-- Settles O36: ADLER_OUT joins the two sums, and the trailer's unit moves the CRC alone. -/
theorem trailerByteIsDelivered : Obligations.TrailerByteIsDelivered := by
  intro s i start hoff hi hidat hsrgb
  rw [Nat.add_assoc] at hoff
  have hslot := hoff.streamSlot_eq
    (o := 7 + 65540 * fullBlocks s.framedLen + lastBlock s.framedLen + i) hidat hsrgb (by omega)
  rw [streamSlot_trailer] at hslot
  have hout : BitVec.ofNat 32 (s.adlerB.toNat * 65536 + s.adlerA.toNat)
      = adlerOut (s.adlerA, s.adlerB) := by
    rw [← adlerOut_toNat (s.adlerA, s.adlerB), BitVec.ofNat_toNat, BitVec.setWidth_eq]
  have hexec : exec .chunkIDAT s = emitTrailer i s := by simp only [exec, execChunkIDAT, hslot]
  rw [emitTrailer, emit_of_accept hoff.accepted, State.crcAdvance_eq] at hexec
  refine ⟨_, _, hexec, by rw [hout], (TouchesInternals.crc s _).delivered _, ?_⟩
  rw [State.deliver_eq]
  exact ⟨rfl, fun _ => rfl, rfl⟩

end Sys2Proof.Machine

/-! PROOFS. The model's consumer undoes the core (R217): stored blocks, chunks and rows are each read back
from what `pack`, `chunk` and `frame` make. -/

namespace Sys2Proof.Machine

/-! ## Byte orders (R8, R70) -/

/-- The two bytes of a length field make the length again (R102). -/
theorem append_le16_bytes (v : BitVec 16) : v.extractLsb' 8 8 ++ v.extractLsb' 0 8 = v := by
  rw [BitVec.extractLsb'_append_extractLsb'_eq_extractLsb' (by decide)]
  exact BitVec.extractLsb'_eq_self

theorem readBE32_be32 (v : Word) (rest : List Byte) : readBE32 (be32 v ++ rest) = some (v, rest) := by
  have hjoin : v.extractLsb' 24 8 ++ v.extractLsb' 16 8 ++ v.extractLsb' 8 8 ++ v.extractLsb' 0 8 = v := by
    rw [BitVec.extractLsb'_append_extractLsb'_eq_extractLsb' (by decide),
      BitVec.extractLsb'_append_extractLsb'_eq_extractLsb' (by decide),
      BitVec.extractLsb'_append_extractLsb'_eq_extractLsb' (by decide)]
    exact BitVec.extractLsb'_eq_self
  exact congrArg (fun w => some (w, rest)) hjoin

/-! ## Stored blocks (R102, R103) -/

/-- A stored block of any length: its payload ends the sequence or comes before that of the blocks after
it, by BFINAL. -/
theorem readBlocks_block (fuel : Nat) (final : Bool) {len : BitVec 16} {payload : List Byte}
    (h : payload.length = len.toNat) (rest : List Byte) :
    readBlocks (fuel + 1) (blockHeader final len ++ (payload ++ rest))
      = if final then some (payload, rest)
        else (readBlocks fuel rest).map fun r => (payload ++ r.1, r.2) := by
  have htake : (payload ++ rest).take len.toNat = payload := List.take_left' h
  have hdrop : (payload ++ rest).drop len.toNat = rest := List.drop_left' h
  have hle : len.toNat ≤ (payload ++ rest).length := by rw [List.length_append]; omega
  simp only [blockHeader, le16, List.cons_append, List.nil_append, readBlocks, append_le16_bytes, htake,
    hdrop]
  cases final with
  | true => rw [if_pos ⟨by decide, trivial, hle⟩, if_pos (by decide), if_pos rfl]
  | false =>
    rw [if_pos ⟨by decide, trivial, hle⟩, if_neg (by decide), if_neg nofun]
    cases readBlocks fuel rest <;> rfl

/-- Full blocks in a row (R202, R203). -/
theorem readBlocks_fullBlocks (fuel : Nat) {framed rest : List Byte} {blocks : List Nat}
    (h : ∀ b ∈ blocks, (fullBlock framed b).length = 65535) :
    readBlocks (blocks.length + fuel)
        (blocks.flatMap (fun b => blockHeader false 65535 ++ fullBlock framed b) ++ rest)
      = (readBlocks fuel rest).map fun r => (blocks.flatMap (fullBlock framed) ++ r.1, r.2) := by
  induction blocks with
  | nil => simp
  | cons b blocks ih =>
    obtain ⟨hb, hblocks⟩ := List.forall_mem_cons.1 h
    have hblock := readBlocks_block (blocks.length + fuel) false (len := 65535) hb
    simp only [List.length_cons, List.flatMap_cons, List.append_assoc, Nat.add_right_comm _ 1, hblock,
      ih hblocks]
    simp [Function.comp_def]

/-- Slices of one length, one behind the other, are the front of a sequence. -/
theorem flatMap_range_slices {α : Type} (l : List α) (c n : Nat) :
    (List.range n).flatMap (fun i => (l.drop (i * c)).take c) = l.take (n * c) := by
  induction n with
  | zero => simp
  | succ n ih => simp [List.range_succ, ih, Nat.succ_mul, List.take_add]

/-- The full blocks of a StoredStream, each behind its header (R202, R203). -/
def fullRecords (framed : List Byte) : List Byte :=
  (List.range (fullBlocks framed.length)).flatMap fun b => blockHeader false 65535 ++ fullBlock framed b

/-- The terminal block of a StoredStream behind its header (R204). -/
def terminalRecord (framed : List Byte) : List Byte :=
  blockHeader true (BitVec.ofNat 16 (lastBlock framed.length))
    ++ framed.drop (fullBlocks framed.length * 65535)

/-- The StoredStream as the consumer takes it apart (R200). -/
theorem pack_eq (p : Params) (framed : List Byte) :
    pack p framed = p.cmf :: p.flg
      :: (fullRecords framed ++ (terminalRecord framed ++ be32 (adler32 framed))) := by
  simp only [pack, fullRecords, terminalRecord, List.append_assoc, List.cons_append, List.nil_append]

/-- The blocks of a StoredStream hold the FramedBuffer (R202). -/
theorem readBlocks_records (fuel : Nat) (framed rest : List Byte) :
    readBlocks (fullBlocks framed.length + (fuel + 1))
      (fullRecords framed ++ (terminalRecord framed ++ rest)) = some (framed, rest) := by
  have hfull : ∀ b ∈ List.range (fullBlocks framed.length), (fullBlock framed b).length = 65535 :=
    fun b hb => fullBlock_length (List.mem_range.1 hb)
  have hlast : (framed.drop (fullBlocks framed.length * 65535)).length
      = (BitVec.ofNat 16 (lastBlock framed.length)).toNat := by
    have := lastBlock_lt framed.length
    rw [lastBlock_payload_length, BitVec.toNat_ofNat, Nat.mod_eq_of_lt (by omega)]
  have hslices : (List.range (fullBlocks framed.length)).flatMap (fullBlock framed)
      = framed.take (fullBlocks framed.length * 65535) := flatMap_range_slices framed 65535 _
  have hread := readBlocks_fullBlocks (fuel + 1) hfull (rest := terminalRecord framed ++ rest)
  rw [List.length_range] at hread
  rw [fullRecords, hread, terminalRecord, List.append_assoc, readBlocks_block _ _ hlast, if_pos rfl,
    Option.map_some, hslices, List.take_append_drop]

/-- The consumer gets every FramedBuffer back from its StoredStream (R217). -/
theorem unpack_pack {p : Params} (hp : p.Admissible) (framed : List Byte) :
    unpack (pack p framed) = some framed := by
  obtain ⟨hcm, -, hfdict, hcheck⟩ := hp
  have hlen := pack_length p framed
  rw [pack_eq, List.length_cons, List.length_cons, streamSize_eq_blocks] at hlen
  have hfuel : (fullRecords framed ++ (terminalRecord framed ++ be32 (adler32 framed))).length
      = fullBlocks framed.length
        + (65539 * fullBlocks framed.length + lastBlock framed.length + 8 + 1) := by omega
  rw [pack_eq, unpack, if_pos ⟨hcm, hfdict, hcheck⟩, hfuel, readBlocks_records]
  exact if_pos rfl

/-! ## Rows (R181, R182) -/

/-- Rows of `st` bytes come back without their tags. -/
theorem unframe_rows {st : Nat} {row : Nat → List Byte} {rows : List Nat}
    (h : ∀ r ∈ rows, (row r).length = st) :
    unframe st rows.length (rows.flatMap fun r => tagByte :: row r) = some (rows.flatMap row) := by
  induction rows with
  | nil => rfl
  | cons r rows ih =>
    obtain ⟨hr, hrows⟩ := List.forall_mem_cons.1 h
    simp [unframe, List.take_left' hr, List.drop_left' hr, ih hrows, hr]

theorem unframe_frame {pixels : List Byte} {f : ColorFormat} {w h : Nat}
    (hp : pixels.length = pixelBytes f w h) :
    unframe (stride f w) h (frame pixels f w h) = some pixels := by
  rw [← stride_mul] at hp
  have hrow : ∀ r ∈ List.range h, ((pixels.drop (r * stride f w)).take (stride f w)).length
      = stride f w := fun r hr => Nat.succ.inj (frame_row_length hp (List.mem_range.1 hr))
  have hread := unframe_rows hrow
  rwa [List.length_range, flatMap_range_slices, ← hp, List.take_length] at hread

/-! ## Chunks (R97 to R99) -/

/-- A chunk that fits its length field is read back with its CRC checked. -/
theorem readChunk_chunk (c : Chunk) {payload : List Byte} (h : payload.length < 2 ^ 32)
    (rest : List Byte) :
    readChunk (chunkTag c) (chunk (chunkTag c) payload ++ rest) = some (payload, rest) := by
  have htag := chunkTag_length c
  have hlen : (BitVec.ofNat 32 payload.length).toNat = payload.length := Nat.mod_eq_of_lt h
  simp only [readChunk, chunk, List.append_assoc, readBE32_be32, hlen, ← List.drop_drop,
    List.take_left' htag, List.drop_left' htag, List.take_left, List.drop_left, and_self, if_true]

theorem formatOfColourType_colourType (f : ColorFormat) :
    formatOfColourType f.colourType = some f := by
  cases f <;> rfl

theorem readHeader_ihdr (f : ColorFormat) (w h : Word) :
    readHeader (ihdr f w h) = some (f, w, h) := by
  simp [readHeader, ihdr, readBE32_be32, formatOfColourType_colourType]

/-! ## The whole file (R217) -/

theorem readFile_out {p : Params} {f : ColorFormat} {w h : Word} {pixels : List Byte}
    (hp : p.Admissible) (hlen : pixels.length = pixelBytes f w.toNat h.toNat)
    (hfits : streamSize (framedLen f w.toNat h.toNat) < 2 ^ 32) :
    readFile p.order (out p f w h pixels) = some (f, w, h, pixels) := by
  have hsize : (pack p (frame pixels f w.toNat h.toNat)).length < 2 ^ 32 := by
    rwa [pack_length, frame_length hlen]
  have hihdr := readChunk_chunk .ihdr (payload := ihdr f w h) (by decide : 13 < 2 ^ 32)
  have hsrgb := readChunk_chunk .srgb (payload := srgbPayload) (by decide)
  have hiend := readChunk_chunk .iend (payload := []) (by decide) []
  have hidat := readChunk_chunk .idat hsize
  simp only [chunkTag, List.append_nil] at hihdr hsrgb hiend hidat
  have hsig : sigBytes.length = 8 := rfl
  cases horder : p.order <;>
    simp [readFile, out, horder, List.take_left' hsig, List.drop_left' hsig, hihdr, hsrgb, hiend, hidat,
      readHeader_ihdr, unpack_pack hp, unframe_frame hlen]

/-- Settles O60: MAX_CHUNK_LEN keeps the IDAT payload inside its length field, so that every chunk is read
back, and with it the blocks and the rows. -/
theorem consumerReadsThePixelsBack : Obligations.ConsumerReadsThePixelsBack := by
  intro p f w h pixels hp hlen hfits
  exact ⟨unpack_pack hp _, readFile_out hp hlen (Nat.lt_of_le_of_lt hfits p.maxChunkLen.isLt)⟩

end Sys2Proof.Machine

/-! PROOFS. The serializer (44_chunk_serializer): an ENCODE whose sink fails (R287, R289), and the CRC unit's
table form and known values (R241, R242, R244). -/

namespace Sys2Proof.Machine

/-! ## A sink that fails (R250, R287, R289, R303) -/

/-- A run goes on from where its first `j` steps lead. -/
theorem runFor_add_of_next {j : Nat} {s t : State} (h : runFor j s = .next t) (k : Nat) :
    runFor (j + k) s = runFor k t := by
  induction j generalizing s with
  | zero => rw [Nat.zero_add, Host.Outcome.next.inj h]
  | succ j ih =>
    cases hs : step s with
    | next u =>
      rw [runFor_succ_of_next hs] at h
      rw [Nat.add_right_comm, runFor_succ_of_next hs, ih h]
    | fault r => cases (runFor_succ_of_fault hs j).symm.trans h
    | refused r => cases (runFor_succ_of_refused hs j).symm.trans h

/-- While an ENCODE runs, the operation that owns OUTCNT takes the sink's FAIL (R287). -/
theorem Running.step_fail {s : State} {pixels : List Byte} {code : Word} {rest : List HostOp}
    (h : Running s) (hb : s.phase = .busy) (hbuf : s.pixels = some pixels)
    (hunits : UnitsAt s pixels s.outcnt.toNat) (hp : s.program = .answer (.fail code) :: rest) :
    step s = .next { s with
      program := rest, answer := none, sinkcode := code, phase := .error, cause := .sinkFailure } := by
  obtain ⟨i, hi⟩ := owner_of_busy hb h.inside
  have hrun : Running { s with program := rest, answer := some (.fail code) } :=
    ⟨h.shape, h.fits, h.inside, h.pred⟩
  obtain ⟨b, adv, hexec, -⟩ :=
    owner_emitsOut (s := { s with program := rest, answer := some (.fail code) }) hbuf hrun
      (hunits.withHost rest (some (.fail code))) hi
  exact (step_of_instr (fetch_of_answer hp hi)).trans (hexec.trans (emit_of_fail rfl))

/-- Settles O56: the sink holds the `k` accepted bytes (`Ready.runFor_encode`), and the step on FAIL leaves
sink, OUTCNT, configuration and PIXMEM as it finds them. -/
theorem sinkFailureLeavesAPrefix : Obligations.SinkFailureLeavesAPrefix := by
  intro s pixels k code rest h hk hp
  obtain ⟨t, hrun, ht, htp⟩ := h.runFor_encode hk.le hp
  obtain ⟨hb, hrunning, hunits⟩ := ht.more hk
  have hfail := hrunning.step_fail hb (ht.pixels_eq.trans h.buffer) (ht.outcnt.symm ▸ hunits) htp
  have hend := (runFor_add_of_next hrun 1).trans (runFor_succ_of_next hfail 0)
  rw [show 1 + k + 1 = 2 + k by omega] at hend
  exact ⟨_, hend, ht.sink, rfl, rfl, rfl, ht.outcnt, ht.config,
    fun a => congrArg (Memory.read · a) ht.pixmem, rfl⟩

/-! ## One round of CRC_UPDATE is linear over xor (R242) -/

/-- What a round adds for the bit it shifts out. -/
def crcFeedback (low : Bool) : Word := if low then 0xEDB88320 else 0

/-- One of the eight rounds of CRC_UPDATE. -/
def crcRound (c : Word) : Word := c >>> 1 ^^^ crcFeedback (c.getLsbD 0)

theorem crcRounds_succ (n : Nat) (c : Word) : crcRounds (n + 1) c = crcRounds n (crcRound c) := by
  rw [crcRounds, crcRound, BitVec.getLsbD, Nat.testBit_zero]
  split <;> simp [crcFeedback, *]

theorem crcFeedback_xor : ∀ a b : Bool, crcFeedback (a ^^ b) = crcFeedback a ^^^ crcFeedback b := by
  decide

theorem crcRound_xor (x y : Word) : crcRound (x ^^^ y) = crcRound x ^^^ crcRound y := by
  rw [crcRound, BitVec.getLsbD_xor, crcFeedback_xor, BitVec.ushiftRight_xor_distrib, crcRound, crcRound]
  ac_rfl

theorem crcRounds_xor (n : Nat) (x y : Word) :
    crcRounds n (x ^^^ y) = crcRounds n x ^^^ crcRounds n y := by
  induction n generalizing x y with
  | zero => rfl
  | succ n ih => rw [crcRounds_succ, crcRounds_succ, crcRounds_succ, crcRound_xor, ih]

/-! ## Rounds that shift out only zeros -/

theorem crcRound_of_low_clear {x : Word} (h : x.getLsbD 0 = false) : crcRound x = x >>> 1 := by
  rw [crcRound, h]
  exact BitVec.xor_zero

theorem crcRounds_of_low_clear {n : Nat} {x : Word} (h : ∀ i < n, x.getLsbD i = false) :
    crcRounds n x = x >>> n := by
  induction n generalizing x with
  | zero => exact (BitVec.ushiftRight_zero x).symm
  | succ n ih =>
    have hrest : ∀ i < n, (x >>> 1).getLsbD i = false := fun i hi => by
      rw [BitVec.getLsbD_ushiftRight]
      exact h _ (by omega)
    rw [crcRounds_succ, crcRound_of_low_clear (h 0 n.succ_pos), ih hrest, ← BitVec.shiftRight_add,
      Nat.add_comm]

/-- The low `n` bits go through the rounds by themselves; the others are only shifted. -/
theorem crcRounds_eq_low_xor_shift {n : Nat} {mask : Word} (hlow : ∀ i < n, mask.getLsbD i = true)
    (hhigh : mask >>> n = 0#32) (x : Word) :
    crcRounds n x = crcRounds n (x &&& mask) ^^^ x >>> n := by
  have hclear : ∀ i < n, (x ^^^ (x &&& mask)).getLsbD i = false := fun i hi => by
    rw [BitVec.getLsbD_xor, BitVec.getLsbD_and, hlow i hi, Bool.and_true, Bool.xor_self]
  have hshift : (x ^^^ (x &&& mask)) >>> n = x >>> n := by
    rw [BitVec.ushiftRight_xor_distrib, BitVec.ushiftRight_and_distrib, hhigh, BitVec.and_zero,
      BitVec.xor_zero]
  calc crcRounds n x
      = crcRounds n ((x &&& mask) ^^^ (x ^^^ (x &&& mask))) := by
        rw [BitVec.xor_comm x, ← BitVec.xor_assoc, BitVec.xor_self, BitVec.zero_xor]
    _ = crcRounds n (x &&& mask) ^^^ x >>> n := by
        rw [crcRounds_xor, crcRounds_of_low_clear hclear, hshift]

/-- Settles O49: the eight rounds act on the low byte by the table and shift the rest, and the input byte
has no bits there. -/
theorem crcTableForm : Obligations.CrcTableForm := by
  intro c b
  have hbyte : b.setWidth 32 >>> 8 = 0#32 := by bv_omega
  rw [crcUpdate, crcRounds_eq_low_xor_shift (mask := 0xFF) (by decide) (by decide),
    BitVec.ushiftRight_xor_distrib, hbyte, BitVec.xor_zero]

/-- Settles O50: the values are closed, and the kernel evaluates the CRC unit on them. -/
theorem crcKnownValues : Obligations.CrcKnownValues := by
  unfold Obligations.CrcKnownValues
  decide +kernel

end Sys2Proof.Machine

/-! PROOFS. The sequencer (45_orchestrator): the byte of OUT in every running state (R283, R285 to R287), the
records' own bytes (R272 to R277), where they stand in OUT (R281), and what OUT depends on (R280). -/

namespace Sys2Proof.Machine

/-! ## The sink's answers in a running state (R284 to R287) -/

/-- The invariant has the units where the closed form puts them at OUTCNT (R283). -/
theorem Inv.unitsAt {s : State} {pixels : List Byte} (h : Inv s) (hb : s.phase = .busy)
    (hbuf : s.pixels = some pixels) : UnitsAt s pixels s.outcnt.toNat := by
  obtain ⟨-, -, hunits⟩ := (streaming_iff_unitsAt s pixels).1 (h.streaming hb pixels hbuf)
  exact hunits

/-- Settles O53: the invariant places the units, so the owner of OUTCNT offers the byte of OUT
(`Running.step_accept`); OUT is as long as predicted, which gives OUTCNT = PRED behind the last byte. -/
theorem acceptDeliversTheByteOfOut : Obligations.AcceptDeliversTheByteOfOut := by
  intro s pixels rest h hb hbuf hp
  have hrun := h.registers.busy hb
  have hlen : (s.out pixels).length = s.outLen :=
    State.out_length (State.pixels_length hbuf hrun.shape)
  obtain ⟨t, b, hstep, hacc⟩ := hrun.step_accept hb hbuf (h.unitsAt hb hbuf) hp
  obtain ⟨hsink, houtcnt, -, hlast, hmore⟩ := hacc.delivered
  have hpred : t.pred.toNat = s.outLen := by
    rw [hacc.pred, hrun.pred, State.outLen_eq_predictedSize]
  rw [hlen]
  refine ⟨t, b, hstep, hacc.byte, hsink, houtcnt ▸ hrun.outcnt_succ, fun hend => ?_,
    fun hend => (hmore hend).1.trans hb, hacc.config,
    fun a => congrArg (Memory.read · a) hacc.pixmem, hacc.pred, hacc.program⟩
  obtain ⟨hphase, hcause⟩ := hlast hend
  exact ⟨hphase, hcause, hend.trans hpred.symm⟩

/-- Settles O54: the invariant places the units, and the owner of OUTCNT takes the FAIL. -/
theorem failEndsTheCommand : Obligations.FailEndsTheCommand := by
  intro s code rest h hb ⟨pixels, hbuf⟩ hp
  exact (h.registers.busy hb).step_fail hb hbuf (h.unitsAt hb hbuf) hp

/-- Settles O38: BUSY makes command, format and register writes ineffective, PIX has no next state, and
what is left writes the host agent alone. -/
theorem onlySinkAnswersAdvanceARunningEncode : Obligations.OnlySinkAnswersAdvanceARunningEncode := by
  intro s t hb hstep hanswer hwait hreset
  rcases fetch_cases s with ⟨_, hf⟩ | ⟨w, rest, _, hf⟩ | ⟨w, rest, _, hf⟩ | ⟨a, rest, _, hp, _⟩
    | ⟨rest, _, hp, _⟩ | ⟨op, rest, hp, hf, _⟩
  · rw [step_of_idle hf] at hstep
    cases hstep; rfl
  · rw [step_of_instr hf, exec_decodeCmd_of_busy (s := { s with program := rest }) hb] at hstep
    cases hstep; rfl
  · rw [step_of_instr hf, exec_decodeFormat_of_busy (s := { s with program := rest }) hb] at hstep
    cases hstep; rfl
  · exact absurd hp (hanswer a rest)
  · exact absurd hp (hwait rest)
  · rw [step_of_access hf] at hstep
    rcases hostStep_cases hstep with ⟨_, _, _, _, hbusy, _⟩ | ⟨_, rfl, _⟩ | ⟨_, _, _, hquiet, _⟩
      | ⟨_, _, rfl⟩ | ⟨_, hquiet, _⟩ | ⟨rfl, _⟩
    · rw [hbusy hb]
    · rfl
    · exact absurd hb hquiet
    · rfl
    · exact absurd hb hquiet
    · exact absurd hp (hreset rest)

/-! ## The records' own bytes (R272 to R277) -/

/-- Settles O27: the operation owns the first eight offsets, and its unit moves no register. -/
theorem signatureByteIsDelivered : Obligations.SignatureByteIsDelivered := by
  intro s k hoff hk
  have hslot : s.slot = .signature k := hoff.slot_eq.trans (slotAt_signature hk)
  have hexec : exec .signature s = .next (s.deliver (byteOf sigBytes k)) := by
    simp only [exec, execSignature, hslot, emit_of_accept hoff.accepted, id]
  refine ⟨_, hexec, (TouchesInternals.refl s).delivered _, ?_⟩
  rw [State.deliver_eq]
  exact ⟨fun _ => rfl, rfl⟩

theorem byteOf_append_left {as : List Byte} {i : Nat} (h : i < as.length) (bs : List Byte) :
    byteOf (as ++ bs) i = byteOf as i := List.getD_append as bs 0 i h

theorem byteOf_append_right {as : List Byte} {i : Nat} (h : as.length ≤ i) (bs : List Byte) :
    byteOf (as ++ bs) i = byteOf bs (i - as.length) := List.getD_append_right as bs 0 i h

/-- The serializer's bytes before the payload (R246, R247). -/
theorem fieldByte_of_lt (tag : List Byte) (len : Nat) (payload : Nat → Byte)
    (crc : Word) {j : Nat} (hj : j < 8) :
    fieldByte tag len payload crc j = byteOf (be32 (BitVec.ofNat 32 len) ++ tag) j := by
  unfold fieldByte
  split
  · rw [byteOf_append_left ‹_›]
  · rw [byteOf_append_right (Nat.le_of_not_lt ‹_›), be32_length]

/-- The serializer's bytes behind the payload (R249). -/
theorem fieldByte_of_ge (tag : List Byte) {len : Nat} (payload : Nat → Byte) (crc : Word) {j : Nat}
    (hj : 8 + len ≤ j) :
    fieldByte tag len payload crc j = byteOf (be32 (crcOut crc)) (j - 8 - len) := by
  rw [fieldByte, if_neg (by omega), if_neg (by omega), if_neg (by omega)]

/-- The serializer's byte, read off the chunk that ends in the register's CRC field (R97). -/
theorem fieldByte_eq_byteOf {tag : List Byte} (htag : tag.length = 4) (payload : List Byte) (crc : Word)
    (j : Nat) :
    fieldByte tag payload.length (byteOf payload) crc j
      = byteOf (be32 (BitVec.ofNat 32 payload.length) ++ tag ++ payload ++ be32 (crcOut crc)) j := by
  have hframe : (be32 (BitVec.ofNat 32 payload.length) ++ tag).length = 8 := by
    rw [List.length_append, be32_length, htag]
  have hbody : (be32 (BitVec.ofNat 32 payload.length) ++ tag ++ payload).length
      = 8 + payload.length := by
    rw [List.length_append, hframe]
  by_cases hend : 8 + payload.length ≤ j
  · rw [fieldByte_of_ge tag _ _ hend, byteOf_append_right (by omega), hbody, Nat.sub_sub]
  rw [byteOf_append_left (by omega)]
  by_cases hj : j < 8
  · exact (fieldByte_of_lt tag _ _ crc hj).trans (byteOf_append_left (by omega) payload).symm
  · rw [byteOf_append_right (by omega), hframe, fieldByte, if_neg (by omega), if_neg hj,
      if_pos (by omega)]

/-- The record operation of a chunk (R282). -/
def chunkInstr : Chunk → Instr
  | .ihdr => .chunkIHDR
  | .idat => .chunkIDAT
  | .srgb => .chunkSRGB
  | .iend => .chunkIEND

theorem Slot.owner_chunk (n : Nat) (c : Chunk) (f : ChunkField) :
    (Slot.chunk c f).owner n = some (chunkInstr c) := by
  cases c <;> rfl

/-- What an accepted byte of a chunk does, the packager's bytes of IDAT excepted (R246 to R249): it is
`fieldByte`, and of the units the CRC register alone moves. -/
theorem chunkByte_delivered {s : State} {c : Chunk} {j : Nat}
    (hoff : Offering s (chunkStart s.params.order s.streamSize c + j))
    (hj : j < 12 + chunkLen s.streamSize c) (hidat : c = .idat → j < 8 ∨ 8 + s.streamSize ≤ j) :
    ∃ t b, exec (chunkInstr c) s = .next t
      ∧ b = fieldByte (chunkTag c) (chunkLen s.streamSize c) (s.chunkSource c) s.crc j
      ∧ Delivered s t b ∧ t.crc = chunkCrc (chunkLen s.streamSize c) j s.crc b
      ∧ SameMemory s t ∧ { t.undoHandshake s with crc := s.crc } = s := by
  have hslot : s.slot = .chunk c (chunkField (chunkLen s.streamSize c) j) := by
    refine (hoff.slot_eq.trans (slotAt_chunk hj)).trans ?_
    rcases chunkSlot_cases s.params.order hj with ⟨hc, o, ho, rfl, -⟩ | ⟨hchunk, -⟩
    · have := hidat hc
      simp only [State.streamSize] at this
      omega
    · exact hchunk
  have howner : s.owner = some (chunkInstr c) := by
    rw [State.owner, hslot, Slot.owner_chunk]
  have hexec := (exec_of_chunk_slot hslot howner).trans (emitField_accept _ _ _ _ hoff.accepted)
  refine ⟨_, _, hexec, rfl, (TouchesInternals.crc s _).delivered _, ?_⟩
  rw [State.deliver_eq]
  exact ⟨rfl, fun _ => rfl, rfl⟩

/-- A chunk whose payload the serializer makes itself delivers the bytes of its record, which ends in the
register's CRC field (R273, R276, R277). -/
theorem wholeChunkByte_delivered {s : State} {c : Chunk} {payload : List Byte} {j : Nat}
    (hoff : Offering s (chunkStart s.params.order s.streamSize c + j)) (hj : j < 12 + payload.length)
    (hlen : chunkLen s.streamSize c = payload.length) (hsource : s.chunkSource c = byteOf payload)
    (hne : c ≠ .idat) :
    ∃ t b, exec (chunkInstr c) s = .next t
      ∧ b = byteOf (be32 (BitVec.ofNat 32 payload.length) ++ chunkTag c ++ payload
          ++ be32 (s.crc ^^^ 0xFFFFFFFF)) j
      ∧ Delivered s t b ∧ t.crc = chunkCrc payload.length j s.crc b
      ∧ SameMemory s t ∧ { t.undoHandshake s with crc := s.crc } = s := by
  have hbyte := chunkByte_delivered hoff (hlen ▸ hj) fun hc => absurd hc hne
  rwa [hlen, hsource, fieldByte_eq_byteOf (chunkTag_length c)] at hbyte

/-- Settles O28: IHDR's payload is `ihdr` of the shape registers. -/
theorem headerChunkByteIsDelivered : Obligations.HeaderChunkByteIsDelivered := by
  intro s j hoff hj
  exact wholeChunkByte_delivered (c := .ihdr) (payload := ihdr s.sel s.width s.height) hoff hj rfl rfl
    nofun

/-- The start of the sRGB chunk, as the statement about its bytes gives it (R281). -/
theorem eq_srgbStart {order : ChunkOrder} {size start : Nat}
    (hidat : order = .idatFirst → start = 45 + size) (hsrgb : order = .srgbFirst → start = 33) :
    start = srgbStart size order := by
  cases order with
  | idatFirst => exact hidat rfl
  | srgbFirst => exact hsrgb rfl

/-- Settles O29: the two orders' offsets are `srgbStart`. -/
theorem colourSpaceChunkByteIsDelivered : Obligations.ColourSpaceChunkByteIsDelivered := by
  intro s j start hoff hj hidat hsrgb
  obtain rfl := eq_srgbStart hidat hsrgb
  exact wholeChunkByte_delivered (c := .srgb) (payload := srgbPayload) hoff hj rfl rfl nofun

/-- Settles O30: IEND has no payload. -/
theorem terminatorChunkByteIsDelivered : Obligations.TerminatorChunkByteIsDelivered := by
  intro s j hoff hj
  exact wholeChunkByte_delivered (c := .iend) (payload := []) hoff hj rfl rfl nofun

/-- Settles O31: the offset lies outside the packager's payload. -/
theorem pixelDataChunkFrameIsDelivered : Obligations.PixelDataChunkFrameIsDelivered := by
  intro s j start hoff hj hidat hsrgb
  obtain rfl := eq_idatStart hidat hsrgb
  have hin : j < 12 + s.streamSize := by omega
  obtain ⟨t, b, hexec, hb, hdelivered⟩ :=
    chunkByte_delivered (c := .idat) hoff hin fun _ => hj.imp_right And.left
  refine ⟨t, b, hexec, hb.trans ?_, hdelivered⟩
  split
  · exact fieldByte_of_lt tagIDAT _ _ _ ‹_›
  · exact fieldByte_of_ge tagIDAT (len := s.streamSize) _ _ (by omega)

/-! ## Where the records stand in OUT (R281) -/

/-- Each chunk is the stretch of OUT at the offset R281 gives it. -/
theorem State.out_stretch_chunk {s : State} {pixels : List Byte}
    (hp : pixels.length = pixelBytes s.sel s.width.toNat s.height.toNat) (c : Chunk) :
    ((s.out pixels).drop (chunkStart s.params.order s.streamSize c)).take
      (12 + chunkLen s.streamSize c) = s.chunkBytes pixels c := by
  obtain ⟨pre, post, hout, hpre⟩ := State.out_split hp c
  have hpre : pre.length = chunkStart s.params.order s.streamSize c := hpre
  rw [hout, List.drop_left' hpre]
  exact List.take_left' (State.chunkBytes_length hp c)

/-- Settles O47: each record is the stretch of OUT at its chunk's start, and IEND's twelve bytes are the
last. -/
theorem recordOffsets : Obligations.RecordOffsets := by
  intro p f w h pixels hp z size o
  let s : State := { State.reset with params := p, sel := f, width := w, height := h }
  have hstretch := State.out_stretch_chunk (s := s) hp
  have hidat : (o.drop (idatStart p.order)).take (12 + size) = chunk tagIDAT z := hstretch .idat
  have hsrgb : (o.drop (srgbStart size p.order)).take 13 = chunk tagSRGB [0x00] := hstretch .srgb
  have hiend : (o.drop (58 + size)).take 12 = chunk tagIEND [] := hstretch .iend
  have hlen : o.length = 70 + size := State.out_length (s := s) hp
  have hsig : o.take 8 = sigBytes := by
    rw [show o = _ from s.out_eq_chunks pixels]
    exact List.take_left' rfl
  refine ⟨hsig, hstretch .ihdr, fun ho => ?_, fun ho => ?_, ?_⟩
  · rw [ho] at hidat hsrgb
    exact ⟨hidat, hsrgb⟩
  · rw [ho] at hidat hsrgb
    exact ⟨hsrgb, hidat⟩
  · rwa [List.take_of_length_le] at hiend
    rw [List.length_drop, hlen]
    omega

/-! ## What OUT depends on (R280) -/

/-- Settles O57: both runs have emitted the first `k` bytes of one OUT (`Ready.runFor_encode`), and
`Emitted` fixes the registers the host sees by `k`. -/
theorem outputDependsOnTheInputsAlone : Obligations.OutputDependsOnTheInputsAlone := by
  intro s t pixels k s' t' hs ht hconfig hk hps hpt hruns hrunt
  have hkt : k ≤ t.outLen := hconfig.outLen_eq ▸ hk
  obtain ⟨u, hu, hsu, -⟩ := hs.runFor_encode hk (rest := []) (by rw [hps, List.append_nil])
  obtain ⟨v, hv, htv, -⟩ := ht.runFor_encode hkt (rest := []) (by rw [hpt, hps, List.append_nil])
  obtain rfl := Host.Outcome.next.inj (hruns.symm.trans hu)
  obtain rfl := Host.Outcome.next.inj (hrunt.symm.trans hv)
  have hphase : s'.phase = t'.phase := by
    rcases hk.lt_or_eq with hlt | hend
    · rw [(hsu.more hlt).1, (htv.more (hconfig.outLen_eq ▸ hlt)).1]
    · rw [hsu.last hend, htv.last (hend.trans hconfig.outLen_eq.symm)]
  refine ⟨?_, hphase, hsu.cause.trans htv.cause.symm,
    BitVec.eq_of_toNat_eq (hsu.outcnt.trans htv.outcnt.symm), BitVec.eq_of_toNat_eq ?_⟩
  · rw [hsu.sink, htv.sink, List.drop_left, List.drop_left, hconfig.out_eq]
  · rw [hsu.pred, htv.pred, hconfig.outLen_eq]

end Sys2Proof.Machine

/-! PROOFS. STATE and CAUSE as the exceptions chapter has them (60_exceptions): where each cause arises
(R300 to R306), and how a command leaves ERROR (R307, R350). -/

namespace Sys2Proof.Machine

/-! ## The origin of each cause (R302 to R305) -/

/-- A CMD word leaves CAUSE, clears it, or is an ENCODE outside BUSY that fails VALIDATE or, past that,
SIZECHECK (R302, R304, R306). -/
theorem exec_decodeCmd_cause {w : Word} {s t : State} (h : exec (decodeCmd w) s = .next t) :
    t.cause = s.cause ∨ t.cause = .none
    ∨ (t.cause = .contractViolation ∧ s.phase ≠ .busy ∧ ¬ s.ShapeMatches ∧ w.toNat % 4 = 1)
    ∨ (t.cause = .lengthOverflow ∧ s.phase ≠ .busy ∧ s.ShapeMatches ∧ ¬ s.PayloadFits
      ∧ w.toNat % 4 = 1) := by
  rcases exec_decodeCmd_cases w h with rfl | ⟨hb, hw, hshape, rfl⟩ | ⟨hb, hw, hshape, hover, rfl⟩
    | ⟨_, _, _, _, rfl⟩ | ⟨_, _, rfl⟩
  · exact .inl rfl
  · exact .inr (.inr (.inl ⟨rfl, hb, hshape, hw⟩))
  · exact .inr (.inr (.inr ⟨rfl, hb, hshape, hover, hw⟩))
  · exact .inr (.inl rfl)
  · exact .inr (.inl rfl)

/-- A FORMAT word leaves CAUSE (R135, R136). -/
theorem exec_decodeFormat_cause {w : Word} {s t : State} (h : exec (decodeFormat w) s = .next t) :
    t.cause = s.cause := by
  rcases exec_decodeFormat_cases w h with ⟨_, rfl⟩ | ⟨_, _, rfl⟩ <;> rfl

/-- A record operation leaves CAUSE, clears it with the last byte, or takes the sink's FAIL, whose code goes
to SINKCODE (R286, R305). -/
theorem exec_record_cause {i : Instr} (hi : IsRecord i) {s t : State} (h : exec i s = .next t) :
    t.cause = s.cause ∨ t.cause = .none
    ∨ (t.cause = .sinkFailure ∧ s.answer = some (.fail t.sinkcode)) := by
  obtain ⟨-, ⟨_, rfl⟩ | ⟨_, b, u, hu, rfl⟩ | ⟨code, hfail, rfl⟩⟩ := exec_record_next hi h
  · exact .inl rfl
  · obtain ⟨-, -, -, hlast, hmore⟩ := hu.delivered b
    by_cases hend : (u.deliver b).outcnt.toNat = s.outLen
    · exact .inr (.inl (hlast hend).2)
    · exact .inl (hmore hend).2
  · exact .inr (.inr ⟨rfl, hfail⟩)

/-- A host operation that is no instruction leaves CAUSE, or clears it as a reset (R340). -/
theorem hostStep_cause {op : HostOp} {s t : State} (h : hostStep op s = .next t) :
    t.cause = s.cause ∨ t.cause = .none := by
  rcases hostStep_status h with rfl | ⟨_, hcause⟩
  · cases h
    exact .inr rfl
  · exact .inl hcause

/-- Only FAIL_AT fails a byte: the one it names, with its code (R95, log 13). -/
theorem SinkPolicy.eq_failAt_of_answer {p : SinkPolicy} {k : Nat} {code : Word}
    (h : p.answer k = .fail code) : p = .failAt k code := by
  cases p with
  | accept => cases h
  | failAt i c =>
    rw [SinkPolicy.answer] at h
    split at h
    next hk => cases h; rw [hk]
    next => cases h

/-- Settles O39, by the cases of a step: a command raises the two checks' causes, a record operation the
sink's, and nothing else writes an error to CAUSE. -/
theorem eachCauseHasOneOrigin : Obligations.EachCauseHasOneOrigin := by
  intro s t hstep hchanged herror
  rcases fetch_cases s with ⟨_, hf⟩ | ⟨w, rest, hp, hf⟩ | ⟨w, rest, _, hf⟩ | ⟨a, rest, i, hp, hi, hf⟩
    | ⟨rest, i, hp, hi, hf⟩ | ⟨op, rest, _, hf, _⟩
  · rw [step_of_idle hf] at hstep
    cases hstep
    exact absurd rfl hchanged
  · rw [step_of_instr hf] at hstep
    rcases exec_decodeCmd_cause hstep with hsame | hnone | ⟨hcause, hb, hshape, hw⟩
      | ⟨hcause, hb, hshape, hover, hw⟩
    · exact absurd hsame hchanged
    · exact absurd hnone herror
    · exact .inl ⟨hcause, hb, hshape, w, rest, hp, hw⟩
    · exact .inr (.inl ⟨hcause, hb, hshape, hover, w, rest, hp, hw⟩)
  · rw [step_of_instr hf] at hstep
    exact absurd (exec_decodeFormat_cause hstep) hchanged
  · rw [step_of_instr hf] at hstep
    obtain ⟨hb, -, hrecord⟩ := owner_some hi
    rcases exec_record_cause hrecord hstep with hsame | hnone | ⟨hcause, hfail⟩
    · exact absurd hsame hchanged
    · exact absurd hnone herror
    · obtain rfl : a = .fail t.sinkcode := Option.some.inj hfail
      exact .inr (.inr ⟨hcause, hb, rest, .inl hp⟩)
  · rw [step_of_instr hf] at hstep
    obtain ⟨hb, -, hrecord⟩ := owner_some hi
    rcases exec_record_cause hrecord hstep with hsame | hnone | ⟨hcause, hfail⟩
    · exact absurd hsame hchanged
    · exact absurd hnone herror
    · have hpolicy := SinkPolicy.eq_failAt_of_answer (Option.some.inj hfail)
      exact .inr (.inr ⟨hcause, hb, rest, .inr ⟨hp, hpolicy⟩⟩)
  · rw [step_of_access hf] at hstep
    rcases hostStep_cause hstep with hsame | hnone
    · exact absurd hsame hchanged
    · exact absurd hnone herror

/-! ## Commands in ERROR (R307) -/

/-- Settles O14: ERROR is not BUSY, so each command has its accept step, and NOP and OP 3 have no effect. -/
theorem commandsInError : Obligations.CommandsInError := by
  intro rsv s t herror
  have hb : s.phase ≠ .busy := by simp [herror]
  obtain ⟨hnop, hop3⟩ := nopAndReservedOp3HaveNoEffect.1 rsv s
  refine ⟨fun h => ?_, fun h => ?_, fun h => ?_, fun h hshape hfits => ?_⟩
  · rw [hnop] at h
    cases h
    exact ⟨herror, rfl⟩
  · rw [hop3] at h
    cases h
    exact ⟨herror, rfl⟩
  · rw [exec_predict_of_quiet hb] at h
    cases h
    exact ⟨rfl, rfl⟩
  · rw [exec_encode_of_valid hb hshape hfits] at h
    cases h
    exact ⟨rfl, rfl⟩

end Sys2Proof.Machine

/-! PROOFS. Reset (R340, R341): the step of a reset, and the invariant at reset. -/

namespace Sys2Proof.Machine

/-! ## The step of a reset (R341) -/

/-- A reset is no instruction: it acts through the host port, in any state, BUSY included. -/
theorem step_of_reset {s : State} {rest : List HostOp} (hp : s.program = .reset :: rest) :
    step s = .next { s with program := rest }.resetCore := by
  have hf : fetch s = .access .reset { s with program := rest } := by simp [fetch, hp]
  exact step_of_access hf

/-- After a reset the core is IDLE, so no byte is offered. -/
theorem State.resetCore_owner (s : State) : s.resetCore.owner = none :=
  State.owner_of_quiet (by simp [State.reset])

/-- Settles O21: the step is `resetCore`, which sets the core's registers to their reset values, passes
over PIXMEM and the environment, and leaves no offered byte (`resetCore_owner`). -/
theorem resetClearsTheCore : Obligations.ResetClearsTheCore := by
  intro s rest hp
  refine ⟨_, step_of_reset hp, ?registers⟩
  simp [State.resetCore_owner, State.reset]

/-! ## The invariant at reset (R340) -/

/-- A reset establishes the registers' invariant in any state, whatever stood before it. -/
theorem State.resetCore_registerInv (s : State) : RegisterInv s.resetCore := by
  constructor <;> simp [State.reset]

/-- Settles O51: the registers' part holds after any reset, PIXMEM lists nothing, the parameters are this
core's, and IDLE asks nothing of the streaming units. -/
theorem resetMeetsTheInvariant : Obligations.ResetMeetsTheInvariant where
  registers := State.reset.resetCore_registerInv
  memory := ⟨.nil, nofun⟩
  params := by decide
  streaming := nofun

end Sys2Proof.Machine
